-- ==== Sys2Proof/Word.lean ====
section
/-! DEFINITION. The word types of the DSSS modulator and its small enumerations: input bytes,
quadrants, the segments, the mappers and the fatal causes. -/

namespace Sys2Proof

/-- One input byte (R103). -/
abbrev Byte := BitVec 8

/-- A phase held as a quadrant `k`, meaning `k*pi/2`; also the 2-bit chip code `j^k` (R14, R120).
DESIGN CHOICE of the spec (D2, D3); log 16. -/
abbrev Quadrant := BitVec 2

/-- A rate code: 0..6 valid, 7 reserved (R33). -/
abbrev Rate := BitVec 3

/-- An input item: one byte and the length annotation attached to it, if any
(R12 `InByte`, `InTag`; R70(a)). -/
structure InItem where
  byte : Byte
  tag  : Option Nat
  deriving DecidableEq, Repr

/-- The segments of R50, fault segments included. -/
inductive Segment where
  | faulted | badState | badRate | preamble | header | payload | trailer | idle
  deriving DecidableEq, Repr

/-- The four chip mappers (R52). -/
inductive Mapper where
  | dbpsk | dqpsk | cck55 | cck11
  deriving DecidableEq, Repr

/-- The causes a FAULT step reports (R133, R306). -/
inductive FatalCause where
  /-- `BAD_RATE_STATE`, code 2 (R304). -/
  | badRateState
  /-- `BAD_INVARIANT`, code 3 (R305). -/
  | badInvariant
  deriving DecidableEq, Repr

end Sys2Proof
end

