-- ==== Sys2Proof/Config.lean ====
section
/-! DEFINITION. What an implementation fixes: the parameters of R8 and 93 I17, held as plain data so
that every statement ranges over their values, and the free values, opaque constants nothing can
evaluate. -/

namespace Sys2Proof

/-- A four-entry table of quadrants, indexed by a 2-bit field (R43). -/
structure QuadTable where
  at0 : Quadrant
  at1 : Quadrant
  at2 : Quadrant
  at3 : Quadrant
  deriving DecidableEq, Repr

/-- The static parameters (R8; the CCK increment table by 93 I17). No step writes them (R42). -/
structure Params where
  /-- `CNT_W` (R8, D13, 93 I15): the width in bits of `d_copy` and `d_count`; any width of at least
  5. Log 1. -/
  cntW : Nat
  /-- `LONG_1M_BYTES` (R8): input bytes sent at 1 Mbps before the payload regime, long preamble. -/
  long1MBytes : Nat
  /-- `MALFORMED_TRAILER` (R8): whether a malformed packet still gets a trailer. -/
  malformedTrailer : Bool
  /-- `CCK_INC[even]` (R43). -/
  cckIncEven : QuadTable
  /-- `CCK_INC[odd]` (R43). -/
  cckIncOdd : QuadTable
  deriving DecidableEq, Repr

/-- `SYM_W = CNT_W + 3`: the width of `d_psdu_symbol_count` (R8). -/
def Params.symW (prm : Params) : Nat := prm.cntW + 3

/-- `EXP_W = CNT_W + 7`: the width of a `Tag`'s value (R8, R220). -/
def Params.expW (prm : Params) : Nat := prm.cntW + 7

/-- The default parameter values of R8 and R43. The CCK increments are the spec's "from general
knowledge" (93 G1). DESIGN CHOICE, log 1, log 2 and log 3. -/
def defaultParams : Params where
  cntW := 32
  long1MBytes := 18
  malformedTrailer := false
  cckIncEven := ⟨0, 3, 1, 2⟩
  cckIncOdd := ⟨2, 1, 3, 0⟩

/-- FREE VALUE. The answer of FORECAST while `rate = 7`: "any value" (R280, 93 I8). It is a function
of the rest of `S` and of `N`, since a query "may be repeated with the same answer while `S` is
unchanged" (R80). Nothing constrains it otherwise; log 14. -/
opaque Config.forecastAtReservedRate (dCopy dCount : Nat) (phase : Quadrant)
    (symbols : Nat) (append : BitVec 4) (fault : Bool) (n : Nat) : Nat

/-- FREE VALUE. What `d_psdu_symbol_count` holds when a sum does not fit `SYM_W` bits. R38 says that
it cannot happen from reset and N10 forbids assuming a wrap, so the spec states no value; log 15. Its
low `SYM_W` bits are what the counter holds. -/
opaque Config.symbolCountPastWidth (symW count symbols : Nat) : Nat

end Sys2Proof
end

