-- ==== Sys2Proof/Syntax.lean ====
section
/-! DEFINITION. The instructions: one constructor for each of the 24 rows of spec/opcode_table.json. -/

namespace Sys2Proof

/-- The block's operations. A selector row carries its length annotation `len` (the side-band `L` of
R102); a malformed row also carries the selector bits its mask leaves open; a data row carries the
byte. `TRAILER` and `FAULT` read no byte; the last three are host operations. -/
inductive Instr where
  /-- START, selector 0x00: 1M-long (R100, R212). -/
  | start1MLong (len : Nat)
  /-- START, selector 0x01: 2M-long (R100, R212). -/
  | start2MLong (len : Nat)
  /-- START, selector 0x02: 5.5M-long (R100, R212). -/
  | start55MLong (len : Nat)
  /-- START, selector 0x03: 11M-long (R100, R212). -/
  | start11MLong (len : Nat)
  /-- START, selector 0x04: 2M-short (R100, R212). -/
  | start2MShort (len : Nat)
  /-- START, selector 0x05: 5.5M-short (R100, R212). -/
  | start55MShort (len : Nat)
  /-- START, selector 0x06: 11M-short (R100, R212). -/
  | start11MShort (len : Nat)
  /-- START, malformed selector 0x07 (R213). -/
  | startMalformed07 (len : Nat)
  /-- START, malformed selectors 0x08..0x0F (R213). -/
  | startMalformed08 (low : BitVec 3) (len : Nat)
  /-- START, malformed selectors 0x10..0x1F (R213). -/
  | startMalformed10 (low : BitVec 4) (len : Nat)
  /-- START, malformed selectors 0x20..0x3F (R213). -/
  | startMalformed20 (low : BitVec 5) (len : Nat)
  /-- START, malformed selectors 0x40..0x7F (R213). -/
  | startMalformed40 (low : BitVec 6) (len : Nat)
  /-- START, malformed selectors 0x80..0xFF (R213). -/
  | startMalformed80 (low : BitVec 7) (len : Nat)
  /-- MAP of a byte in format D-DBPSK (R104, R170, R230). -/
  | mapDbpsk (x : Byte)
  /-- MAP of a byte in format D-DQPSK (R105, R180, R230). -/
  | mapDqpsk (x : Byte)
  /-- MAP of a byte in format D-CCK55 (R106, R185, R230). -/
  | mapCck55 (x : Byte)
  /-- MAP of a byte in format D-CCK11 (R107, R190, R230). -/
  | mapCck11 (x : Byte)
  /-- DISCARD of a byte in format D-RAW (R108, R245). -/
  | discard (x : Byte)
  /-- TRAILER (R240). -/
  | trailer
  /-- FAULT with its cause (R306). -/
  | fault (cause : FatalCause)
  /-- REFUSE: an annotated byte whose annotation is inadmissible (R214). -/
  | refuse (sel : Byte) (len : Nat)
  /-- PROCESS: a host call with a window of `n` bytes and `cap` chip slots (R260). -/
  | process (n cap : Nat)
  /-- FORECAST of `n` chips (R280). -/
  | forecast (n : Nat)
  /-- RESET (R340). -/
  | reset
  deriving DecidableEq, Repr

end Sys2Proof
end

