-- ==== Sys2Proof/WellFormed.lean ====
section
/-! DEFINITION. Which parameter values are well formed (R8), and which instructions: the admitted
annotations of R102, at the counter width `CNT_W`. Every other operand is held in a type that admits
exactly the values its encoding has. -/

namespace Sys2Proof

/-- An admissible length annotation: `1 <= L <= 2^CNT_W` (R102). -/
def admissibleLength (cntW len : Nat) : Bool :=
  decide (1 ≤ len ∧ len ≤ 2 ^ cntW)

/-- The parameter values R8 admits: `CNT_W` at least 5, and `LONG_1M_BYTES` 18 or its alternative
24. -/
def Params.wellFormed (prm : Params) : Bool :=
  decide (5 ≤ prm.cntW ∧ (prm.long1MBytes = 18 ∨ prm.long1MBytes = 24))

/-- The well-formed instructions: a START's annotation is admissible (R102, R212, R213) and a
REFUSE's is not (R214), at the counter width `CNT_W`. -/
def Instr.wellFormed (cntW : Nat) : Instr → Bool
  | .start1MLong len => admissibleLength cntW len
  | .start2MLong len => admissibleLength cntW len
  | .start55MLong len => admissibleLength cntW len
  | .start11MLong len => admissibleLength cntW len
  | .start2MShort len => admissibleLength cntW len
  | .start55MShort len => admissibleLength cntW len
  | .start11MShort len => admissibleLength cntW len
  | .startMalformed07 len => admissibleLength cntW len
  | .startMalformed08 _ len => admissibleLength cntW len
  | .startMalformed10 _ len => admissibleLength cntW len
  | .startMalformed20 _ len => admissibleLength cntW len
  | .startMalformed40 _ len => admissibleLength cntW len
  | .startMalformed80 _ len => admissibleLength cntW len
  | .mapDbpsk _ => true
  | .mapDqpsk _ => true
  | .mapCck55 _ => true
  | .mapCck11 _ => true
  | .discard _ => true
  | .trailer => true
  | .fault _ => true
  | .refuse _ len => !admissibleLength cntW len
  | .process _ _ => true
  | .forecast _ => true
  | .reset => true

end Sys2Proof
end

