-- ==== Sys2Proof/Decode.lean ====
section
/-! DEFINITION. Decoding of the byte at the read position (R110) and its inverse. The format of a byte
depends on the side-band annotation and on the segment (R103), so the decoder takes both, and the
counter width `CNT_W` with them, since it bounds the admitted annotations (R102); the opcode table's
bits alone name only the selector rows. -/

namespace Sys2Proof

/-- Why a byte is not decoded. -/
inductive DecodeReject where
  /-- FAULTED, BADRATE, BADSTATE: "no decode (FAULT or no step)" (R110). -/
  | noDecode
  /-- TRAILER: "byte not read; TRAILER first" (R110). -/
  | trailerFirst
  /-- A segment and rate that R103's table does not list together; no state shows it (R50). -/
  | noSuchContext
  deriving DecidableEq, Repr

/-- `short(rate)` (R34). -/
def shortPreamble (rate : Rate) : Bool := rate == 4 || rate == 5 || rate == 6

/-- `long(rate)` (R34). -/
def longPreamble (rate : Rate) : Bool := rate == 0 || rate == 1 || rate == 2 || rate == 3

/-- The payload mapper of each rate code; none for the reserved code 7 (R44, R52). -/
def payloadMapper (rate : Rate) : Option Mapper :=
  match rate.toNat with
  | 0 => some .dbpsk
  | 1 => some .dqpsk
  | 2 => some .cck55
  | 3 => some .cck11
  | 4 => some .dqpsk
  | 5 => some .cck55
  | 6 => some .cck11
  | _ => none

/-- The mapper of a segment and rate, by the table of R103 (and R52). -/
def mapperAt (seg : Segment) (rate : Rate) : Option Mapper :=
  match seg with
  | .preamble => if rate = 7 then none else some .dbpsk
  | .header => if shortPreamble rate then some .dqpsk else none
  | .payload => payloadMapper rate
  | .faulted | .badState | .badRate | .trailer | .idle => none

/-- The MAP instruction of a mapper. -/
def mapInstr : Mapper → Byte → Instr
  | .dbpsk, x => .mapDbpsk x
  | .dqpsk, x => .mapDqpsk x
  | .cck55, x => .mapCck55 x
  | .cck11, x => .mapCck11 x

/-- A selector byte read by its 13 table rows (R100; opcode_table.json, format SEL). -/
def decodeSelector (x : Byte) (len : Nat) : Instr :=
  if x = 0x00 then .start1MLong len
  else if x = 0x01 then .start2MLong len
  else if x = 0x02 then .start55MLong len
  else if x = 0x03 then .start11MLong len
  else if x = 0x04 then .start2MShort len
  else if x = 0x05 then .start55MShort len
  else if x = 0x06 then .start11MShort len
  else if x = 0x07 then .startMalformed07 len
  else if x.extractLsb' 3 5 = 1 then .startMalformed08 (x.extractLsb' 0 3) len
  else if x.extractLsb' 4 4 = 1 then .startMalformed10 (x.extractLsb' 0 4) len
  else if x.extractLsb' 5 3 = 1 then .startMalformed20 (x.extractLsb' 0 5) len
  else if x.extractLsb' 6 2 = 1 then .startMalformed40 (x.extractLsb' 0 6) len
  else .startMalformed80 (x.extractLsb' 0 7) len

/-- An annotated byte in a segment that reads one: START, or REFUSE where the annotation is
inadmissible (R262). -/
def decodeAnnotated (cntW : Nat) (x : Byte) (len : Nat) : Instr :=
  if admissibleLength cntW len then decodeSelector x len else .refuse x len

/-- An unannotated byte in one of the three mapping segments (R103). -/
def decodeData (seg : Segment) (rate : Rate) (x : Byte) : Except DecodeReject Instr :=
  match mapperAt seg rate with
  | some m => .ok (mapInstr m x)
  | none => .error .noSuchContext

/-- `decode(S, x, annotated)` of R110; `S` enters by its segment and rate only (R103). -/
def decode (cntW : Nat) (seg : Segment) (rate : Rate) (item : InItem) :
    Except DecodeReject Instr :=
  match seg with
  | .faulted => .error .noDecode
  | .badState => .error .noDecode
  | .badRate => .error .noDecode
  | .trailer => .error .trailerFirst
  | .idle =>
    match item.tag with
    | some len => .ok (decodeAnnotated cntW item.byte len)
    | none => .ok (.discard item.byte)
  | .preamble | .header | .payload =>
    match item.tag with
    | some len => .ok (decodeAnnotated cntW item.byte len)
    | none => decodeData seg rate item.byte

/-- The input item that encodes an instruction: its byte by the formats of R100 and R104 to R108,
and its annotation. TRAILER, FAULT and the host operations have no encoding (their table rows have
no match word). -/
def encode : Instr → Option InItem
  | .start1MLong len => some ⟨0x00, some len⟩
  | .start2MLong len => some ⟨0x01, some len⟩
  | .start55MLong len => some ⟨0x02, some len⟩
  | .start11MLong len => some ⟨0x03, some len⟩
  | .start2MShort len => some ⟨0x04, some len⟩
  | .start55MShort len => some ⟨0x05, some len⟩
  | .start11MShort len => some ⟨0x06, some len⟩
  | .startMalformed07 len => some ⟨0x07, some len⟩
  | .startMalformed08 low len => some ⟨(0b00001#5 ++ low : BitVec 8), some len⟩
  | .startMalformed10 low len => some ⟨(0b0001#4 ++ low : BitVec 8), some len⟩
  | .startMalformed20 low len => some ⟨(0b001#3 ++ low : BitVec 8), some len⟩
  | .startMalformed40 low len => some ⟨(0b01#2 ++ low : BitVec 8), some len⟩
  | .startMalformed80 low len => some ⟨(0b1#1 ++ low : BitVec 8), some len⟩
  | .mapDbpsk x => some ⟨x, none⟩
  | .mapDqpsk x => some ⟨x, none⟩
  | .mapCck55 x => some ⟨x, none⟩
  | .mapCck11 x => some ⟨x, none⟩
  | .discard x => some ⟨x, none⟩
  | .trailer => none
  | .fault _ => none
  | .refuse sel len => some ⟨sel, some len⟩
  | .process _ _ => none
  | .forecast _ => none
  | .reset => none

/-- The segments in which an annotated byte is read: "segment is not TRAILER, FAULTED, BADRATE or
BADSTATE" (opcode_table.json, format SEL; R110). -/
def readsAnnotated (seg : Segment) : Bool :=
  seg == .idle || seg == .preamble || seg == .header || seg == .payload

/-- The segments and rates in which an instruction's encoding is read as that instruction: the
"condition" column of opcode_table.json (R103, R110). -/
def Instr.readIn (i : Instr) (seg : Segment) (rate : Rate) : Bool :=
  match i with
  | .mapDbpsk _ => mapperAt seg rate == some .dbpsk
  | .mapDqpsk _ => mapperAt seg rate == some .dqpsk
  | .mapCck55 _ => mapperAt seg rate == some .cck55
  | .mapCck11 _ => mapperAt seg rate == some .cck11
  | .discard _ => seg == .idle
  | .trailer | .fault _ | .process _ _ | .forecast _ | .reset => false
  | .start1MLong _ | .start2MLong _ | .start55MLong _ | .start11MLong _ | .start2MShort _
  | .start55MShort _ | .start11MShort _ | .startMalformed07 _ | .startMalformed08 _ _
  | .startMalformed10 _ _ | .startMalformed20 _ _ | .startMalformed40 _ _ | .startMalformed80 _ _
  | .refuse _ _ => readsAnnotated seg

/-- The instruction the decoder reads from a table word. A row's bits are the one byte of an input
item; only the SEL rows fix any of them, so the byte is taken as a rate selector in IDLE, carrying
the smallest admissible annotation, L = 1. DESIGN CHOICE, log 5. -/
def decodeTableWord (nbits w : Nat) : Option Instr :=
  if nbits = 8 then
    match decode defaultParams.cntW .idle 0 ⟨BitVec.ofNat 8 w, some 1⟩ with
    | .ok i => some i
    | .error _ => none
  else none

end Sys2Proof
end

