-- ==== Sys2Proof/Machine/State.lean ====
section
/-! DEFINITION. The state of the machine as plain data: the engine state `S` of R32, the two streams
with their positions, the running call, the host's pending operations and the answers it has had. -/

namespace Sys2Proof.Machine

/-- The engine state `S`: exactly the fields of R32. The three counters have the widths that the
parameter `CNT_W` gives (R8); `registersFit` in Sys2Proof/Safety.lean says that they keep them. -/
structure Engine where
  /-- Active rate code, 0..6 valid, 7 reserved (R33). -/
  rate : Rate
  /-- Input bytes of the current packet already converted (R35): `CNT_W` bits, held as a number below
  `2^CNT_W` (log 1). -/
  dCopy : Nat
  /-- Input bytes of the current packet (R36): `CNT_W` bits, held as a number below `2^CNT_W`
  (log 1). -/
  dCount : Nat
  /-- Phase accumulator, a quadrant (R37). -/
  dPhaseAcc : Quadrant
  /-- Payload symbol counter (R38): `SYM_W` bits, held as a number below `2^SYM_W` (log 1). -/
  dPsduSymbolCount : Nat
  /-- Trailer state: 0 a trailer is owed, 11 none is (R39). -/
  dAppend : BitVec 4
  /-- Sticky fatal-fault bit (R40). -/
  fault : Bool
  deriving DecidableEq, Repr

/-- The reset value of every field of `S` (R53, R340). -/
def resetEngine : Engine where
  rate := 0
  dCopy := 0
  dCount := 0
  dPhaseAcc := 0
  dPsduSymbolCount := 0
  dAppend := 11
  fault := false

/-- The output events (R130). -/
inductive Event where
  /-- `Chip(q)`: the only event that uses a chip slot. -/
  | chip (q : Quadrant)
  /-- `Tag(E)`: the expected chips of the packet (R131), below `2^EXP_W` (R220). -/
  | tag (e : Nat)
  /-- `RejectEv(s, code)` (R132). -/
  | rejectEv (sel : Byte) (code : Nat)
  /-- `FatalEv(code)` (R306). -/
  | fatalEv (code : Nat)
  deriving DecidableEq, Repr

/-- A running call: the loop variables of R261 and the call's output event stream (R130). -/
structure Call where
  /-- `n`, the bytes of the window; window byte 0 is the byte at the read position (R260). -/
  window : Nat
  /-- `cap`, the chip slots offered (R260). -/
  cap : Nat
  /-- `k`, the window offset: bytes consumed (R261). -/
  consumed : Nat
  /-- `p`, the chips produced: the next output slot (R261). -/
  produced : Nat
  /-- The call's output event stream so far (R130). -/
  events : List Event
  deriving DecidableEq, Repr

/-- A host operation that is pending: the model's own queue (log 5). -/
inductive HostOp where
  | process (n cap : Nat)
  | forecast (n : Nat)
  | reset
  deriving DecidableEq, Repr

/-- An answer to the host. -/
inductive Reply where
  /-- The result `(consumed, produced)` of a call, with its output event stream (R134). -/
  | returned (consumed produced : Nat) (events : List Event)
  /-- The answer of a forecast query (R280). -/
  | forecast (bytes : Nat)
  deriving DecidableEq, Repr

/-- Why a run stops with a fault. -/
inductive Fault where
  /-- Raised by `step` alone, when `S.fault = 1` and the host has nothing pending: "the faulted state
  is never a final state of a run: a model treats it as a fault outcome" (R308). Safe: no transition
  of the engine is cut off, since none is enabled and nothing is asked of it. Log 13. -/
  | fatal
  deriving DecidableEq, Repr

/-- Why an instruction is refused. -/
inductive Refusal where
  /-- Raised by an arm of `exec` whose instruction has no meaning yet; no arm raises it. Safe. -/
  | notModelled (mnemonic : String)
  /-- Raised by REFUSE and by a START whose annotation is inadmissible: "the model gives it no
  meaning and marks the run refused" (R214). Safe: nothing is claimed of such a run. -/
  | inadmissibleLength
  /-- Raised by PROCESS while a call is running: calls never overlap (R292(b), 93 I10). Safe. -/
  | overlappingCall
  /-- Raised by RESET while a call is running: RESET only between calls (R292(c), 93 I10). Safe. -/
  | resetDuringCall
  /-- Raised by a micro-step executed where it is not the candidate of R262: the spec has no such
  step. `step` never raises it. Safe; log 8. -/
  | notSelected
  deriving DecidableEq, Repr

/-- The whole machine. -/
structure State where
  /-- The static parameters; no step writes them (R42). -/
  params : Params
  /-- `S` (R32). -/
  eng : Engine
  /-- The input stream from the read position on (R70(a), R71). -/
  input : List InItem
  /-- The read position: absolute index of the next input byte (R71). -/
  rp : Nat
  /-- The output stream of the calls that have returned (R70(b), R84). -/
  output : List Event
  /-- The host's absolute write position, in chips (R73). -/
  wp : Nat
  /-- The call that is running, if one is (R261). -/
  call : Option Call
  /-- The host operations still to come, next one first (log 5). -/
  ops : List HostOp
  /-- The answers given so far, oldest first (R134, R280). -/
  replies : List Reply
  deriving DecidableEq, Repr

/-- The machine right after reset, for given static parameters. -/
def State.resetWith (params : Params) : State where
  params := params
  eng := resetEngine
  input := []
  rp := 0
  output := []
  wp := 0
  call := none
  ops := []
  replies := []

/-- The machine right after reset: `S` as R53 and R340 say, streams empty and nothing pending
(log 4), the default parameters (log 2). -/
def State.reset : State := State.resetWith defaultParams

end Sys2Proof.Machine
end

