-- ==== Sys2Proof/Machine/Operands.lean ====
section
/-! DEFINITION. The leaf operations every mapper uses: bit fields of an input byte (R104 to R107), the
constant tables (R43), quadrant arithmetic and the phase utility (R140 to R143), Barker spreading
(R145) and the CCK symbol generator (R150). None has state. -/

namespace Sys2Proof.Machine

/-! ## Bit fields -/

/-- Bit `i` of a byte, `x[i]` (R10, R104). -/
def bitAt (x : Byte) (i : Nat) : Bool := x.getLsbD i

/-- Dibit `i` of a byte, `x[2i+1:2i]`, of value `2*x[2i+1] + x[2i]` (R105). -/
def dibitAt (x : Byte) (i : Nat) : BitVec 2 := x.extractLsb' (2 * i) 2

/-- Nibble `h` of a byte, `x[4h+3:4h]` (R106). -/
def nibbleAt (x : Byte) (h : Nat) : BitVec 4 := x.extractLsb' (4 * h) 4

/-! ## Constant tables -/

/-- Entry `d` of a four-entry table. -/
def quadLookup (t : QuadTable) (d : BitVec 2) : Quadrant :=
  if d = 0 then t.at0 else if d = 1 then t.at1 else if d = 2 then t.at2 else t.at3

/-- `BARKER[0..10]` (R43). -/
def barkerTable : List Quadrant := [0, 2, 0, 0, 2, 0, 0, 0, 2, 2, 2]

/-- `TRAILER[0..10]` (R43). -/
def trailerTable : List Quadrant := [0, 2, 0, 0, 2, 0, 0, 0, 2, 2, 2]

/-- `DBPSK_INC[b]` (R43). -/
def dbpskInc (b : Bool) : Quadrant := if b then 2 else 0

/-- `DQPSK_INC` (R43): 0, 1.5π, 0.5π, π. -/
def dqpskTable : QuadTable := ⟨0, 3, 1, 2⟩

/-- `QPSK11` (R43): 0, π, 0.5π, 1.5π. -/
def qpsk11Table : QuadTable := ⟨0, 2, 1, 3⟩

/-- `P2_55[b]` (R43): 0.5π, 1.5π. -/
def p2Offset55 (b : Bool) : Quadrant := if b then 3 else 1

/-- `P4_55[b]` (R43): 0, π. -/
def p4Offset55 (b : Bool) : Quadrant := if b then 2 else 0

/-- `CCK_INC[col][d]`, `odd` naming the column (R43, 93 I17). -/
def cckInc (prm : Params) (odd : Bool) (d : BitVec 2) : Quadrant :=
  quadLookup (if odd then prm.cckIncOdd else prm.cckIncEven) d

/-! ## Phases -/

/-- `qadd(a, b) = (a + b) mod 4`: phase addition followed by wrap (R143). -/
def qadd (a b : Quadrant) : Quadrant := a + b

/-- The complex value `(I, Q)` of a chip code, `j^q` (R120). -/
def chipIQ (q : Quadrant) : Int × Int :=
  if q = 0 then (1, 0) else if q = 1 then (0, 1) else if q = 2 then (-1, 0) else (0, -1)

/-- "while phase ≥ 2π, subtract 2π", at most `fuel` times; phases in units of π (R140). -/
def wrapDown : Nat → Rat → Rat
  | 0, theta => theta
  | fuel + 1, theta => if 2 ≤ theta then wrapDown fuel (theta - 2) else theta

/-- "while phase ≤ −2π, add 2π", at most `fuel` times; phases in units of π (R140). -/
def wrapUp : Nat → Rat → Rat
  | 0, theta => theta
  | fuel + 1, theta => if theta ≤ -2 then wrapUp fuel (theta + 2) else theta

/-- `wrap(theta)` of R140, the two loops one after the other. Phases are rationals in units of π
(log 17); the fuel bounds the turns of either loop. -/
def wrap (theta : Rat) : Rat :=
  let fuel := theta.num.natAbs + 1
  wrapUp fuel (wrapDown fuel theta)

/-- The real phase of a quadrant, `k*pi/2`, in units of π (R14). -/
def phaseOf (k : Quadrant) : Rat := (k.toNat : Rat) / 2

/-! ## Symbols -/

/-- `spread(k)`: a symbol phase times the Barker sequence, 11 chips, chip 0 first (R145). -/
def spread (k : Quadrant) : List Quadrant := barkerTable.map fun b => qadd k b

/-- `cck_symbol(p1, p2, p3, p4)`: 8 chips, c0 first (R150). -/
def cckSymbol (p1 p2 p3 p4 : Quadrant) : List Quadrant :=
  [ qadd p1 (p2 + p3 + p4),
    qadd p1 (p3 + p4),
    qadd p1 (p2 + p4),
    qadd p1 (p4 + 2),
    qadd p1 (p2 + p3),
    qadd p1 p3,
    qadd p1 (p2 + 2),
    p1 ]

end Sys2Proof.Machine
end

