-- ==== Sys2Proof/Machine/Flags.lean ====
section
/-! DEFINITION. The block "has no flags and no condition codes" (R41). The one flag the spec computes is
the parity flag of the 11 Mbps mapper (R191); the payload symbol counter it is read from stands here
too (R232), with the cause codes of the status events (R133). -/

namespace Sys2Proof.Machine

/-- The parity flag `par = S.d_psdu_symbol_count[0]`, true for odd (R191). -/
def parityOdd (S : Engine) : Bool := S.dPsduSymbolCount.testBit 0

/-- `d_psdu_symbol_count + n` (R232). A sum past `SYM_W` bits, which no run from reset reaches (R38),
is a free value of `SYM_W` bits (log 15). -/
def addSymbols (prm : Params) (count n : Nat) : Nat :=
  if count + n < 2 ^ prm.symW then count + n
  else Config.symbolCountPastWidth prm.symW count n % 2 ^ prm.symW

/-- `BAD_SELECTOR` (R133). -/
def badSelectorCode : Nat := 1

/-- The code of a fatal cause (R133). -/
def fatalCode : FatalCause → Nat
  | .badRateState => 2
  | .badInvariant => 3

end Sys2Proof.Machine
end

