-- ==== Sys2Proof/Machine/Segment.lean ====
section
/-! DEFINITION. The functions derived from `S`: the segment, the size and the mapper of the next MAP step
(R50 to R52), the per-rate properties (R44), the expected length of a packet (R220) and the forecast
(R280). -/

namespace Sys2Proof.Machine

/-- `P(rate)`: `LONG_1M_BYTES` when `long(rate)`, 9 when `short(rate)` (R50). For the reserved rate 7
neither holds and no rule reads it. -/
def preambleBytes (prm : Params) (rate : Rate) : Nat :=
  if shortPreamble rate then 9 else prm.long1MBytes

/-- `SHORT_HDR_BYTES` (R8). -/
def shortHdrBytes : Nat := 6

/-- `TRAILER_CHIPS` (R8). -/
def trailerChips : Nat := 11

/-- The guaranteed output size of a mapper: 88, 44, 16, 8 chips (R9, R197). -/
def mapperChips : Mapper → Nat
  | .dbpsk => 88
  | .dqpsk => 44
  | .cck55 => 16
  | .cck11 => 8

/-- The symbols per byte of a mapper: 8, 4, 2, 1 (R44). -/
def mapperSymbols : Mapper → Nat
  | .dbpsk => 8
  | .dqpsk => 4
  | .cck55 => 2
  | .cck11 => 1

/-- `cpb(rate)` (R44); 0 stands for the reserved code's "none". -/
def chipsPerByte (rate : Rate) : Nat :=
  match payloadMapper rate with
  | some m => mapperChips m
  | none => 0

/-- `spb(rate)` (R44); 0 stands for the reserved code's "none". -/
def symbolsPerByte (rate : Rate) : Nat :=
  match payloadMapper rate with
  | some m => mapperSymbols m
  | none => 0

/-- `segment(S)`, tested in the order of R50. -/
def segment (prm : Params) (S : Engine) : Segment :=
  if S.fault then .faulted
  else if S.dCount < S.dCopy then .badState
  else if S.dAppend ≠ 0 ∧ S.dAppend ≠ 11 then .badState
  else if S.dCopy < S.dCount then
    if S.rate = 7 then .badRate
    else if S.dCopy < preambleBytes prm S.rate then .preamble
    else if shortPreamble S.rate ∧ S.dCopy < 9 + shortHdrBytes then .header
    else .payload
  else if S.dAppend = 0 then .trailer
  else .idle

/-- `mapper(S)` (R52). -/
def mapper (prm : Params) (S : Engine) : Option Mapper := mapperAt (segment prm S) S.rate

/-- `size(S)`: the chips of the next MAP step; none where "no MAP is possible" (R51). -/
def size (prm : Params) (S : Engine) : Option Nat :=
  match segment prm S with
  | .preamble => some 88
  | .header => some 44
  | .payload => some (chipsPerByte S.rate)
  | .faulted | .badState | .badRate | .trailer | .idle => none

/-- `E(r, n)`: the segment-weighted sum and the trailer (R220). -/
def expectedChips (prm : Params) (r : Rate) (n : Nat) : Nat :=
  let n1 := min n (preambleBytes prm r)
  let n2 := if shortPreamble r then min (n - n1) 6 else 0
  let n3 := n - n1 - n2
  88 * n1 + 44 * n2 + chipsPerByte r * n3 + 11

/-- The ratio the forecast divides by (R280). -/
def forecastRatio (prm : Params) (S : Engine) : Nat :=
  if S.dCopy < preambleBytes prm S.rate
      ∨ (shortPreamble S.rate ∧ S.dCopy < 9 + shortHdrBytes) then 88
  else chipsPerByte S.rate

/-- `forecast(N)` (R280); any value while `rate = 7` (93 I8, log 14). -/
def forecastBytes (prm : Params) (S : Engine) (n : Nat) : Nat :=
  if S.rate = 7 then
    Config.forecastAtReservedRate S.dCopy S.dCount S.dPhaseAcc S.dPsduSymbolCount S.dAppend
      S.fault n
  else n / forecastRatio prm S

end Sys2Proof.Machine
end

