-- ==== Sys2Proof/Machine/Mappers.lean ====
section
/-! DEFINITION. The four chip mappers (41_chip_mappers.md): from an input byte and the phase accumulator
to the chips of one symbol group and the new accumulator. -/

namespace Sys2Proof.Machine

/-- What a mapper answers: its chips, first one first, and the accumulator it leaves. -/
structure Mapped where
  chips : List Quadrant
  acc : Quadrant
  deriving DecidableEq, Repr

/-- The loop of R170 and R180: each increment is added to the accumulator, and the new accumulator
is spread. -/
def spreadSymbols : Quadrant → List Quadrant → Mapped
  | acc, [] => ⟨[], acc⟩
  | acc, inc :: incs =>
    let acc' := qadd acc inc
    let rest := spreadSymbols acc' incs
    ⟨spread acc' ++ rest.chips, rest.acc⟩

/-- `DBPSK(x)`: eight bit symbols, bit 0 first (R170). -/
def mapBitsDbpsk (acc : Quadrant) (x : Byte) : Mapped :=
  spreadSymbols acc ((List.range 8).map fun i => dbpskInc (bitAt x i))

/-- `DQPSK(x)`: four dibit symbols, dibit 0 first (R180). -/
def mapDibitsDqpsk (acc : Quadrant) (x : Byte) : Mapped :=
  spreadSymbols acc ((List.range 4).map fun i => quadLookup dqpskTable (dibitAt x i))

/-- One half of R185's loop: bits [1:0] of the nibble give the increment, bit 2 gives p2 and bit 3
gives p4; p3 is 0. -/
def mapHalfCck55 (prm : Params) (odd : Bool) (acc : Quadrant) (n : BitVec 4) : Mapped :=
  let acc' := qadd acc (cckInc prm odd (n.extractLsb' 0 2))
  ⟨cckSymbol acc' (p2Offset55 (n.getLsbD 2)) 0 (p4Offset55 (n.getLsbD 3)), acc'⟩

/-- `CCK55(x)`: the low nibble with the even column, then the high nibble with the odd one (R185). -/
def mapHalvesCck55 (prm : Params) (acc : Quadrant) (x : Byte) : Mapped :=
  let first := mapHalfCck55 prm false acc (nibbleAt x 0)
  let second := mapHalfCck55 prm true first.acc (nibbleAt x 1)
  ⟨first.chips ++ second.chips, second.acc⟩

/-- `CCK11(x, par)`: one symbol; x[1:0] the increment, x[3:2], x[5:4], x[7:6] the offsets p2, p3, p4
(R190). -/
def mapSymbolCck11 (prm : Params) (odd : Bool) (acc : Quadrant) (x : Byte) : Mapped :=
  let acc' := qadd acc (cckInc prm odd (dibitAt x 0))
  ⟨cckSymbol acc' (quadLookup qpsk11Table (dibitAt x 1)) (quadLookup qpsk11Table (dibitAt x 2))
      (quadLookup qpsk11Table (dibitAt x 3)), acc'⟩

end Sys2Proof.Machine
end

