-- ==== Sys2Proof/Machine/Ops.lean ====
section
/-! DEFINITION. The named operations over the streams and the call: opening and returning a call, reading
its head byte, consuming and emitting, step selection (R262), starting a packet (R212, R213), taking
the fatal fault (R306) and its only way out, the reset of `S` (R340). -/

namespace Sys2Proof.Machine

/-! ## The call -/

/-- The call the host presents: a window of `n` bytes at the read position and `cap` chip slots,
`k = p = 0` (R260, R261). A window is never longer than what the host holds (log 7). -/
def openCall (n cap : Nat) (s : State) : State :=
  { s with call := some ⟨min n s.input.length, cap, 0, 0, []⟩ }

/-- The call returns `(k, p)` with its event stream: the host advances the read position by `k` and
the write position by `p` (R71, R73, R134, R261). -/
def returnCall (s : State) : State :=
  match s.call with
  | none => s
  | some c =>
    { s with
      call := none
      input := s.input.drop c.consumed
      rp := s.rp + c.consumed
      wp := s.wp + c.produced
      output := s.output ++ c.events
      replies := s.replies ++ [.returned c.consumed c.produced c.events] }

/-- The head byte of the call's window with its annotation, none when the window is used up (R261). -/
def headItem (s : State) (c : Call) : Option InItem :=
  if c.consumed < c.window then s.input[c.consumed]? else none

/-- The free capacity `cap - p` (R262). -/
def freeSlots (c : Call) : Nat := c.cap - c.produced

/-- One input byte is consumed (R72, R261). -/
def consumeByte (c : Call) : Call := { c with consumed := c.consumed + 1 }

/-- An event that uses no chip slot is placed in the call's event stream (R74). -/
def emitStatus (ev : Event) (c : Call) : Call := { c with events := c.events ++ [ev] }

/-- Chips are written to the next slots, in order (R73, R76). -/
def emitChips (qs : List Quadrant) (c : Call) : Call :=
  { c with produced := c.produced + qs.length, events := c.events ++ qs.map .chip }

/-! ## Step selection -/

/-- The step that is a candidate: "depends only on `S` and on whether the head byte exists and
carries an annotation" (R262, R309). The byte is decoded by R110. -/
def candidate (prm : Params) (S : Engine) (head : Option InItem) : Option Instr :=
  match segment prm S with
  | .faulted => none
  | .badRate => some (.fault .badRateState)
  | .badState => some (.fault .badInvariant)
  | .trailer => some .trailer
  | .idle | .preamble | .header | .payload =>
    match head with
    | none => none
    | some item =>
      match decode prm.cntW (segment prm S) S.rate item with
      | .ok i => some i
      | .error _ => none

/-- The free slots a step needs before it is taken: `size(S)` for MAP and 11 for TRAILER (R263); no
other step needs capacity (R262). -/
def slotsNeeded (prm : Params) (S : Engine) : Instr → Nat
  | .mapDbpsk _ | .mapDqpsk _ | .mapCck55 _ | .mapCck11 _ => (size prm S).getD 0
  | .trailer => trailerChips
  | .start1MLong _ | .start2MLong _ | .start55MLong _ | .start11MLong _ | .start2MShort _
  | .start55MShort _ | .start11MShort _ | .startMalformed07 _ | .startMalformed08 _ _
  | .startMalformed10 _ _ | .startMalformed20 _ _ | .startMalformed40 _ _ | .startMalformed80 _ _
  | .discard _ | .fault _ | .refuse _ _ | .process _ _ | .forecast _ | .reset => 0

/-- `select(S, head, free)` (R262): the candidate if its chips fit, else NONE. -/
def select (prm : Params) (S : Engine) (head : Option InItem) (free : Nat) : Option Instr :=
  match candidate prm S head with
  | none => none
  | some i => if slotsNeeded prm S i ≤ free then some i else none

/-- The candidate of a state with a call running. -/
def candidateIn (s : State) (c : Call) : Option Instr := candidate s.params s.eng (headItem s c)

/-- The selected step of a state with a call running. -/
def selectIn (s : State) (c : Call) : Option Instr :=
  select s.params s.eng (headItem s c) (freeSlots c)

/-- A micro-step needs a running call whose candidate it is; elsewhere the spec has no such step and
it is refused (R262; log 8). `run` says what it does to the state. -/
def asCandidate (i : Instr) (s : State) (run : Call → State) :
    Host.Outcome State Fault Refusal :=
  match s.call with
  | none => .refused .notSelected
  | some c => if candidateIn s c = some i then .next (run c) else .refused .notSelected

/-- As `asCandidate`, for a step that writes chips: "When the test fails, the call returns and the
group waits for a later call" (R263, R302; log 9). -/
def asCandidateIfFits (i : Instr) (s : State) (run : Call → State) :
    Host.Outcome State Fault Refusal :=
  asCandidate i s fun c =>
    if slotsNeeded s.params s.eng i ≤ freeSlots c then run c else returnCall s

/-! ## Packet start -/

/-- START with a valid selector: every field of `S` but `fault` is written, and one `Tag` is
emitted (R212, R221). -/
def startValid (i : Instr) (r : Rate) (len : Nat) (s : State) :
    Host.Outcome State Fault Refusal :=
  if admissibleLength s.params.cntW len then
    asCandidate i s fun c =>
      { s with
        eng := { s.eng with
          rate := r
          dCount := len - 1
          dCopy := 0
          dPhaseAcc := 0
          dPsduSymbolCount := 0
          dAppend := 0 }
        call := some (consumeByte
          (emitStatus (.tag (expectedChips s.params r (len - 1))) c)) }
  else .refused .inadmissibleLength

/-- START with a malformed selector: the 1M-long defaults, packet length 0, a trailer only if
`MALFORMED_TRAILER`, and one `RejectEv` (R213). -/
def startMalformed (i : Instr) (sel : Byte) (len : Nat) (s : State) :
    Host.Outcome State Fault Refusal :=
  if admissibleLength s.params.cntW len then
    asCandidate i s fun c =>
      { s with
        eng := { s.eng with
          rate := 0
          dCount := 0
          dCopy := 0
          dPhaseAcc := 0
          dPsduSymbolCount := 0
          dAppend := if s.params.malformedTrailer then 0 else 11 }
        call := some (consumeByte (emitStatus (.rejectEv sel badSelectorCode) c)) }
  else .refused .inadmissibleLength

/-! ## Mapping -/

/-- The MAP step around a mapper's answer (R230): the chips go out, the payload counter grows in
PAYLOAD only (R232), `d_copy` advances and the byte is consumed. -/
def mapStep (i : Instr) (m : Mapped) (s : State) : Host.Outcome State Fault Refusal :=
  asCandidateIfFits i s fun c =>
    { s with
      eng := { s.eng with
        dPhaseAcc := m.acc
        dPsduSymbolCount :=
          if segment s.params s.eng = .payload then
            addSymbols s.params s.eng.dPsduSymbolCount (symbolsPerByte s.eng.rate)
          else s.eng.dPsduSymbolCount
        dCopy := s.eng.dCopy + 1 }
      call := some (consumeByte (emitChips m.chips c)) }

/-! ## Taking the fatal fault, and the way out of it -/

/-- FAULT(c): the sticky bit is set and `FatalEv(c)` emitted; "every other field keeps its value for
inspection", no chip is written and no byte consumed (R306, R307). -/
def takeFault (cause : FatalCause) (s : State) (c : Call) : State :=
  { s with
    eng := { s.eng with fault := true }
    call := some (emitStatus (.fatalEv (fatalCode cause)) c) }

/-- RESET of `S`: the only operation that clears `fault` (R308, R340). The streams and their
positions stay (R342). -/
def resetRegisters (s : State) : State := { s with eng := resetEngine }

/-! ## What is fetched -/

/-- The instruction a pending host operation stands for. -/
def hostInstr : HostOp → Instr
  | .process n cap => .process n cap
  | .forecast n => .forecast n
  | .reset => .reset

/-- An input item is put at the read position of a call: of the running one, whose window grows by
it, or of a call the host presents with this one byte and no capacity (log 5). -/
def presentItem (item : InItem) (s : State) : State :=
  match s.call with
  | none => { s with input := item :: s.input, call := some ⟨1, 0, 0, 0, []⟩ }
  | some c =>
    { s with
      input := s.input.take c.consumed ++ item :: s.input.drop c.consumed
      call := some { c with window := c.window + 1 } }

/-! ## The output stream -/

/-- Whether an event uses a chip slot (R130). -/
def isChip : Event → Bool
  | .chip _ => true
  | .tag _ | .rejectEv _ _ | .fatalEv _ => false

/-- The chips of an event stream. -/
def chipCount (evs : List Event) : Nat := evs.countP isChip

/-- The tags of an event stream with the absolute output position each attaches to: the number of
chips emitted before it (R74). `at0` is the position the stream starts at. -/
def tagPositions : Nat → List Event → List (Nat × Nat)
  | _, [] => []
  | at0, .chip _ :: evs => tagPositions (at0 + 1) evs
  | at0, .tag e :: evs => (at0, e) :: tagPositions at0 evs
  | at0, .rejectEv _ _ :: evs => tagPositions at0 evs
  | at0, .fatalEv _ :: evs => tagPositions at0 evs

end Sys2Proof.Machine
end

