-- ==== Sys2Proof/Machine/Internal.lean ====
section
/-! DEFINITION. The steps outside packet start and mapping: DISCARD (R245), TRAILER (R240), FAULT (R306)
and REFUSE (R214). -/

namespace Sys2Proof.Machine

/-- DISCARD: the byte is consumed and ignored; no event, no chip, no field of `S` written (R245). -/
def execDiscard (x : Byte) (s : State) : Host.Outcome State Fault Refusal :=
  asCandidate (.discard x) s fun c => { s with call := some (consumeByte c) }

/-- TRAILER: the fixed 11 chips, all at once, and `d_append <- 11` (R240). -/
def execTrailer (s : State) : Host.Outcome State Fault Refusal :=
  asCandidateIfFits .trailer s fun c =>
    { s with
      eng := { s.eng with dAppend := 11 }
      call := some (emitChips trailerTable c) }

/-- FAULT: the fatal fault is taken, with the cause that the segment gives (R304 to R306). -/
def execFault (cause : FatalCause) (s : State) : Host.Outcome State Fault Refusal :=
  asCandidate (.fault cause) s fun c => takeFault cause s c

/-- REFUSE: "The model gives it no meaning and marks the run refused" (R214). -/
def execRefuse (_sel : Byte) (_len : Nat) (_s : State) : Host.Outcome State Fault Refusal :=
  .refused .inadmissibleLength

end Sys2Proof.Machine
end

