-- ==== Sys2Proof/Machine/Map.lean ====
section
/-! DEFINITION. The MAP step with each of the four mappers (R230; R170, R180, R185, R190). -/

namespace Sys2Proof.Machine

/-- MAP with the 1 Mbps mapper (R170, R230). -/
def execMapDbpsk (x : Byte) (s : State) : Host.Outcome State Fault Refusal :=
  mapStep (.mapDbpsk x) (mapBitsDbpsk s.eng.dPhaseAcc x) s

/-- MAP with the 2 Mbps mapper (R180, R230). -/
def execMapDqpsk (x : Byte) (s : State) : Host.Outcome State Fault Refusal :=
  mapStep (.mapDqpsk x) (mapDibitsDqpsk s.eng.dPhaseAcc x) s

/-- MAP with the 5.5 Mbps mapper, which does not read the payload counter (R185, R230). -/
def execMapCck55 (x : Byte) (s : State) : Host.Outcome State Fault Refusal :=
  mapStep (.mapCck55 x) (mapHalvesCck55 s.params s.eng.dPhaseAcc x) s

/-- MAP with the 11 Mbps mapper; the parity is read before the counter is increased (R190, R191,
R230). -/
def execMapCck11 (x : Byte) (s : State) : Host.Outcome State Fault Refusal :=
  mapStep (.mapCck11 x) (mapSymbolCck11 s.params (parityOdd s.eng) s.eng.dPhaseAcc x) s

end Sys2Proof.Machine
end

