-- ==== Sys2Proof/Machine/Start.lean ====
section
/-! DEFINITION. Packet start: the seven valid selectors (R212) and the malformed ones, one definition per
row of the opcode table (R213). -/

namespace Sys2Proof.Machine

/-- START, 1M-long: selector 0x00, rate code 0 (R100, R212). -/
def execStart1MLong (len : Nat) (s : State) : Host.Outcome State Fault Refusal :=
  startValid (.start1MLong len) 0 len s

/-- START, 2M-long: selector 0x01, rate code 1 (R100, R212). -/
def execStart2MLong (len : Nat) (s : State) : Host.Outcome State Fault Refusal :=
  startValid (.start2MLong len) 1 len s

/-- START, 5.5M-long: selector 0x02, rate code 2 (R100, R212). -/
def execStart55MLong (len : Nat) (s : State) : Host.Outcome State Fault Refusal :=
  startValid (.start55MLong len) 2 len s

/-- START, 11M-long: selector 0x03, rate code 3 (R100, R212). -/
def execStart11MLong (len : Nat) (s : State) : Host.Outcome State Fault Refusal :=
  startValid (.start11MLong len) 3 len s

/-- START, 2M-short: selector 0x04, rate code 4 (R100, R212). -/
def execStart2MShort (len : Nat) (s : State) : Host.Outcome State Fault Refusal :=
  startValid (.start2MShort len) 4 len s

/-- START, 5.5M-short: selector 0x05, rate code 5 (R100, R212). -/
def execStart55MShort (len : Nat) (s : State) : Host.Outcome State Fault Refusal :=
  startValid (.start55MShort len) 5 len s

/-- START, 11M-short: selector 0x06, rate code 6 (R100, R212). -/
def execStart11MShort (len : Nat) (s : State) : Host.Outcome State Fault Refusal :=
  startValid (.start11MShort len) 6 len s

/-- START, malformed selector 0x07 (R213). -/
def execStartMalformed07 (len : Nat) (s : State) : Host.Outcome State Fault Refusal :=
  startMalformed (.startMalformed07 len) 0x07 len s

/-- START, malformed selectors 0x08..0x0F (R213). -/
def execStartMalformed08 (low : BitVec 3) (len : Nat) (s : State) :
    Host.Outcome State Fault Refusal :=
  startMalformed (.startMalformed08 low len) (0b00001#5 ++ low : BitVec 8) len s

/-- START, malformed selectors 0x10..0x1F (R213). -/
def execStartMalformed10 (low : BitVec 4) (len : Nat) (s : State) :
    Host.Outcome State Fault Refusal :=
  startMalformed (.startMalformed10 low len) (0b0001#4 ++ low : BitVec 8) len s

/-- START, malformed selectors 0x20..0x3F (R213). -/
def execStartMalformed20 (low : BitVec 5) (len : Nat) (s : State) :
    Host.Outcome State Fault Refusal :=
  startMalformed (.startMalformed20 low len) (0b001#3 ++ low : BitVec 8) len s

/-- START, malformed selectors 0x40..0x7F (R213). -/
def execStartMalformed40 (low : BitVec 6) (len : Nat) (s : State) :
    Host.Outcome State Fault Refusal :=
  startMalformed (.startMalformed40 low len) (0b01#2 ++ low : BitVec 8) len s

/-- START, malformed selectors 0x80..0xFF (R213). -/
def execStartMalformed80 (low : BitVec 7) (len : Nat) (s : State) :
    Host.Outcome State Fault Refusal :=
  startMalformed (.startMalformed80 low len) (0b1#1 ++ low : BitVec 8) len s

end Sys2Proof.Machine
end

