-- ==== Sys2Proof/Machine/HostOps.lean ====
section
/-! DEFINITION. The host's operations: PROCESS (R260, R261), FORECAST (R280) and RESET (R340). -/

namespace Sys2Proof.Machine

/-- Perform a selected micro-step (R261 "perform st"). A host operation is never selected. -/
def performStep (i : Instr) (s : State) : Host.Outcome State Fault Refusal :=
  match i with
  | .start1MLong len => execStart1MLong len s
  | .start2MLong len => execStart2MLong len s
  | .start55MLong len => execStart55MLong len s
  | .start11MLong len => execStart11MLong len s
  | .start2MShort len => execStart2MShort len s
  | .start55MShort len => execStart55MShort len s
  | .start11MShort len => execStart11MShort len s
  | .startMalformed07 len => execStartMalformed07 len s
  | .startMalformed08 low len => execStartMalformed08 low len s
  | .startMalformed10 low len => execStartMalformed10 low len s
  | .startMalformed20 low len => execStartMalformed20 low len s
  | .startMalformed40 low len => execStartMalformed40 low len s
  | .startMalformed80 low len => execStartMalformed80 low len s
  | .mapDbpsk x => execMapDbpsk x s
  | .mapDqpsk x => execMapDqpsk x s
  | .mapCck55 x => execMapCck55 x s
  | .mapCck11 x => execMapCck11 x s
  | .discard x => execDiscard x s
  | .trailer => execTrailer s
  | .fault cause => execFault cause s
  | .refuse sel len => execRefuse sel len s
  | .process _ _ => .refused .notSelected
  | .forecast _ => .refused .notSelected
  | .reset => .refused .notSelected

/-- The loop of R261: steps are taken until none is selected, then the call returns. The fuel is
R265's bound on the steps of a call; past it no step is enabled. -/
def runCall : Nat → State → Host.Outcome State Fault Refusal
  | 0, s => .next (returnCall s)
  | fuel + 1, s =>
    match s.call with
    | none => .next s
    | some c =>
      match selectIn s c with
      | none => .next (returnCall s)
      | some i =>
        match performStep i s with
        | .next s' => runCall fuel s'
        | .fault r => .fault r
        | .refused r => .refused r

/-- PROCESS: a whole call, from the window the host presents to the result it gets (R260, R261). A
call of `n` window bytes takes at most `2n + 2` steps (R265). While a call is running there is no
such operation (R292(b), 93 I10). -/
def execProcess (n cap : Nat) (s : State) : Host.Outcome State Fault Refusal :=
  match s.call with
  | some _ => .refused .overlappingCall
  | none => runCall (2 * min n s.input.length + 2) (openCall n cap s)

/-- FORECAST: the answer goes to the host and nothing else changes (R80, R280; log 10). -/
def execForecast (n : Nat) (s : State) : Host.Outcome State Fault Refusal :=
  .next { s with replies := s.replies ++ [.forecast (forecastBytes s.params s.eng n)] }

/-- RESET: `S` takes its reset values; between calls only (R340, R292(c)). -/
def execReset (s : State) : Host.Outcome State Fault Refusal :=
  match s.call with
  | some _ => .refused .resetDuringCall
  | none => .next (resetRegisters s)

end Sys2Proof.Machine
end

