-- ==== Sys2Proof/Machine/Dispatch.lean ====
section
/-! DEFINITION. One arm per instruction, each a direct call of its meaning. -/

namespace Sys2Proof.Machine

def exec (i : Instr) (s : State) : Host.Outcome State Fault Refusal :=
  match i with
  | .start1MLong len => Sys2Proof.Machine.execStart1MLong len s
  | .start2MLong len => Sys2Proof.Machine.execStart2MLong len s
  | .start55MLong len => Sys2Proof.Machine.execStart55MLong len s
  | .start11MLong len => Sys2Proof.Machine.execStart11MLong len s
  | .start2MShort len => Sys2Proof.Machine.execStart2MShort len s
  | .start55MShort len => Sys2Proof.Machine.execStart55MShort len s
  | .start11MShort len => Sys2Proof.Machine.execStart11MShort len s
  | .startMalformed07 len => Sys2Proof.Machine.execStartMalformed07 len s
  | .startMalformed08 low len => Sys2Proof.Machine.execStartMalformed08 low len s
  | .startMalformed10 low len => Sys2Proof.Machine.execStartMalformed10 low len s
  | .startMalformed20 low len => Sys2Proof.Machine.execStartMalformed20 low len s
  | .startMalformed40 low len => Sys2Proof.Machine.execStartMalformed40 low len s
  | .startMalformed80 low len => Sys2Proof.Machine.execStartMalformed80 low len s
  | .mapDbpsk x => Sys2Proof.Machine.execMapDbpsk x s
  | .mapDqpsk x => Sys2Proof.Machine.execMapDqpsk x s
  | .mapCck55 x => Sys2Proof.Machine.execMapCck55 x s
  | .mapCck11 x => Sys2Proof.Machine.execMapCck11 x s
  | .discard x => Sys2Proof.Machine.execDiscard x s
  | .trailer => Sys2Proof.Machine.execTrailer s
  | .fault cause => Sys2Proof.Machine.execFault cause s
  | .refuse sel len => Sys2Proof.Machine.execRefuse sel len s
  | .process n cap => Sys2Proof.Machine.execProcess n cap s
  | .forecast n => Sys2Proof.Machine.execForecast n s
  | .reset => Sys2Proof.Machine.execReset s

end Sys2Proof.Machine
end

