-- ==== Sys2Proof/Machine/Step.lean ====
section
/-! DEFINITION. One step of the machine. Inside a call it is one micro-step of R262, or the call's return;
between calls it is one pending host operation. -/

namespace Sys2Proof.Machine

/-- One step. While a call runs, the selected micro-step is executed, and when none is selected the
call returns (R261, R262). Between calls the next pending host operation is executed. With nothing
pending the engine is dormant and the state stays (R47, R325), unless the fatal bit is set: then the
run has come to its fault outcome (R308; log 13). -/
def step (s : State) : Host.Outcome State Fault Refusal :=
  match s.call with
  | some c =>
    match selectIn s c with
    | some i => exec i s
    | none => .next (returnCall s)
  | none =>
    match s.ops with
    | op :: rest => exec (hostInstr op) { s with ops := rest }
    | [] => if s.eng.fault then .fault .fatal else .next s

/-- `s` with a table word placed where the next step reads: the byte, taken as an annotated one with
L = 1, at the read position of a running call (log 5). Nothing of `S` changes, so the next step runs
it in every segment that reads an annotated byte, IDLE after reset among them. -/
def State.withFetchWord (s : State) (_nbits w : Nat) : State :=
  presentItem ⟨BitVec.ofNat 8 w, some 1⟩ s

end Sys2Proof.Machine
end

