-- ==== Sys2Proof/Laws/State.lean ====
section
/-! SUPPORT. One lemma per field per update, each true by definition, so that no later proof unfolds a
record update. -/

namespace Sys2Proof.Machine

/-! ## The call frame -/

@[simp] theorem consumeByte_window (c : Call) : (consumeByte c).window = c.window := rfl
@[simp] theorem consumeByte_cap (c : Call) : (consumeByte c).cap = c.cap := rfl
@[simp] theorem consumeByte_consumed (c : Call) : (consumeByte c).consumed = c.consumed + 1 := rfl
@[simp] theorem consumeByte_produced (c : Call) : (consumeByte c).produced = c.produced := rfl
@[simp] theorem consumeByte_events (c : Call) : (consumeByte c).events = c.events := rfl

@[simp] theorem emitStatus_window (ev : Event) (c : Call) : (emitStatus ev c).window = c.window := rfl
@[simp] theorem emitStatus_cap (ev : Event) (c : Call) : (emitStatus ev c).cap = c.cap := rfl
@[simp] theorem emitStatus_consumed (ev : Event) (c : Call) : (emitStatus ev c).consumed = c.consumed := rfl
@[simp] theorem emitStatus_produced (ev : Event) (c : Call) : (emitStatus ev c).produced = c.produced := rfl
@[simp] theorem emitStatus_events (ev : Event) (c : Call) : (emitStatus ev c).events = c.events ++ [ev] := rfl

@[simp] theorem emitChips_window (qs : List Quadrant) (c : Call) : (emitChips qs c).window = c.window := rfl
@[simp] theorem emitChips_cap (qs : List Quadrant) (c : Call) : (emitChips qs c).cap = c.cap := rfl
@[simp] theorem emitChips_consumed (qs : List Quadrant) (c : Call) : (emitChips qs c).consumed = c.consumed := rfl
@[simp] theorem emitChips_produced (qs : List Quadrant) (c : Call) : (emitChips qs c).produced = c.produced + qs.length := rfl
@[simp] theorem emitChips_events (qs : List Quadrant) (c : Call) : (emitChips qs c).events = c.events ++ qs.map .chip := rfl

/-! ## The state -/

@[simp] theorem openCall_params (n cap : Nat) (s : State) :
    (openCall n cap s).params = s.params := rfl
@[simp] theorem openCall_eng (n cap : Nat) (s : State) :
    (openCall n cap s).eng = s.eng := rfl
@[simp] theorem openCall_input (n cap : Nat) (s : State) :
    (openCall n cap s).input = s.input := rfl
@[simp] theorem openCall_rp (n cap : Nat) (s : State) :
    (openCall n cap s).rp = s.rp := rfl
@[simp] theorem openCall_output (n cap : Nat) (s : State) :
    (openCall n cap s).output = s.output := rfl
@[simp] theorem openCall_wp (n cap : Nat) (s : State) :
    (openCall n cap s).wp = s.wp := rfl
@[simp] theorem openCall_call (n cap : Nat) (s : State) :
    (openCall n cap s).call = some ⟨min n s.input.length, cap, 0, 0, []⟩ := rfl
@[simp] theorem openCall_ops (n cap : Nat) (s : State) :
    (openCall n cap s).ops = s.ops := rfl
@[simp] theorem openCall_replies (n cap : Nat) (s : State) :
    (openCall n cap s).replies = s.replies := rfl

@[simp] theorem resetRegisters_params (s : State) :
    (resetRegisters s).params = s.params := rfl
@[simp] theorem resetRegisters_eng (s : State) :
    (resetRegisters s).eng = resetEngine := rfl
@[simp] theorem resetRegisters_input (s : State) :
    (resetRegisters s).input = s.input := rfl
@[simp] theorem resetRegisters_rp (s : State) :
    (resetRegisters s).rp = s.rp := rfl
@[simp] theorem resetRegisters_output (s : State) :
    (resetRegisters s).output = s.output := rfl
@[simp] theorem resetRegisters_wp (s : State) :
    (resetRegisters s).wp = s.wp := rfl
@[simp] theorem resetRegisters_call (s : State) :
    (resetRegisters s).call = s.call := rfl
@[simp] theorem resetRegisters_ops (s : State) :
    (resetRegisters s).ops = s.ops := rfl
@[simp] theorem resetRegisters_replies (s : State) :
    (resetRegisters s).replies = s.replies := rfl

@[simp] theorem takeFault_params (cause : FatalCause) (s : State) (c : Call) :
    (takeFault cause s c).params = s.params := rfl
@[simp] theorem takeFault_eng (cause : FatalCause) (s : State) (c : Call) :
    (takeFault cause s c).eng = { s.eng with fault := true } := rfl
@[simp] theorem takeFault_input (cause : FatalCause) (s : State) (c : Call) :
    (takeFault cause s c).input = s.input := rfl
@[simp] theorem takeFault_rp (cause : FatalCause) (s : State) (c : Call) :
    (takeFault cause s c).rp = s.rp := rfl
@[simp] theorem takeFault_output (cause : FatalCause) (s : State) (c : Call) :
    (takeFault cause s c).output = s.output := rfl
@[simp] theorem takeFault_wp (cause : FatalCause) (s : State) (c : Call) :
    (takeFault cause s c).wp = s.wp := rfl
@[simp] theorem takeFault_call (cause : FatalCause) (s : State) (c : Call) :
    (takeFault cause s c).call = some (emitStatus (.fatalEv (fatalCode cause)) c) := rfl
@[simp] theorem takeFault_ops (cause : FatalCause) (s : State) (c : Call) :
    (takeFault cause s c).ops = s.ops := rfl
@[simp] theorem takeFault_replies (cause : FatalCause) (s : State) (c : Call) :
    (takeFault cause s c).replies = s.replies := rfl

/-! ## Returning a call -/

section
variable {s : State} {c : Call}

/-- Where no call is running there is nothing to return. -/
theorem returnCall_of_none (h : s.call = none) : returnCall s = s := by
  simp [returnCall, h]

/-- Everything the return of a call does. -/
theorem returnCall_of_some (h : s.call = some c) :
    returnCall s = { s with
      call := none
      input := s.input.drop c.consumed
      rp := s.rp + c.consumed
      wp := s.wp + c.produced
      output := s.output ++ c.events
      replies := s.replies ++ [.returned c.consumed c.produced c.events] } := by
  simp [returnCall, h]

/-- No call is running after a return. -/
@[simp] theorem returnCall_call (s : State) : (returnCall s).call = none := by
  cases h : s.call <;> simp [returnCall, h]

@[simp] theorem returnCall_params (s : State) : (returnCall s).params = s.params := by
  cases h : s.call <;> simp [returnCall, h]

@[simp] theorem returnCall_eng (s : State) : (returnCall s).eng = s.eng := by
  cases h : s.call <;> simp [returnCall, h]

@[simp] theorem returnCall_ops (s : State) : (returnCall s).ops = s.ops := by
  cases h : s.call <;> simp [returnCall, h]

end

/-! ## Presenting a byte -/

@[simp] theorem presentItem_params (item : InItem) (s : State) :
    (presentItem item s).params = s.params := by
  cases h : s.call <;> simp [presentItem, h]

@[simp] theorem presentItem_eng (item : InItem) (s : State) :
    (presentItem item s).eng = s.eng := by
  cases h : s.call <;> simp [presentItem, h]

@[simp] theorem presentItem_rp (item : InItem) (s : State) :
    (presentItem item s).rp = s.rp := by
  cases h : s.call <;> simp [presentItem, h]

@[simp] theorem presentItem_output (item : InItem) (s : State) :
    (presentItem item s).output = s.output := by
  cases h : s.call <;> simp [presentItem, h]

@[simp] theorem presentItem_wp (item : InItem) (s : State) :
    (presentItem item s).wp = s.wp := by
  cases h : s.call <;> simp [presentItem, h]

@[simp] theorem presentItem_ops (item : InItem) (s : State) :
    (presentItem item s).ops = s.ops := by
  cases h : s.call <;> simp [presentItem, h]

@[simp] theorem presentItem_replies (item : InItem) (s : State) :
    (presentItem item s).replies = s.replies := by
  cases h : s.call <;> simp [presentItem, h]

/-! ## Reset -/

@[simp] theorem resetWith_eng (prm : Params) : (State.resetWith prm).eng = resetEngine := rfl
@[simp] theorem resetWith_input (prm : Params) : (State.resetWith prm).input = [] := rfl
@[simp] theorem resetWith_rp (prm : Params) : (State.resetWith prm).rp = 0 := rfl
@[simp] theorem resetWith_output (prm : Params) : (State.resetWith prm).output = [] := rfl
@[simp] theorem resetWith_wp (prm : Params) : (State.resetWith prm).wp = 0 := rfl
@[simp] theorem resetWith_call (prm : Params) : (State.resetWith prm).call = none := rfl
@[simp] theorem resetWith_ops (prm : Params) : (State.resetWith prm).ops = [] := rfl
@[simp] theorem resetWith_replies (prm : Params) : (State.resetWith prm).replies = [] := rfl
@[simp] theorem resetWith_params (prm : Params) : (State.resetWith prm).params = prm := rfl

end Sys2Proof.Machine
end

