-- ==== Sys2Proof/Safety.lean ====
section
/-! DEFINITION. The terms claims are made in: the invariants of R290 and of the streams, what a complete
packet is (R308), and, written a second time from the rules' own closed forms and not from the
model's loops, the chips and phases of each mapper. -/

namespace Sys2Proof.Machine

/-! ## Kinds of instruction -/

/-- The START steps, valid or malformed. -/
def isStart : Instr → Bool
  | .start1MLong _ | .start2MLong _ | .start55MLong _ | .start11MLong _ | .start2MShort _
  | .start55MShort _ | .start11MShort _ | .startMalformed07 _ | .startMalformed08 _ _
  | .startMalformed10 _ _ | .startMalformed20 _ _ | .startMalformed40 _ _
  | .startMalformed80 _ _ => true
  | .mapDbpsk _ | .mapDqpsk _ | .mapCck55 _ | .mapCck11 _ | .discard _ | .trailer | .fault _
  | .refuse _ _ | .process _ _ | .forecast _ | .reset => false

/-- The MAP steps. -/
def isMap : Instr → Bool
  | .mapDbpsk _ | .mapDqpsk _ | .mapCck55 _ | .mapCck11 _ => true
  | .start1MLong _ | .start2MLong _ | .start55MLong _ | .start11MLong _ | .start2MShort _
  | .start55MShort _ | .start11MShort _ | .startMalformed07 _ | .startMalformed08 _ _
  | .startMalformed10 _ _ | .startMalformed20 _ _ | .startMalformed40 _ _
  | .startMalformed80 _ _ | .discard _ | .trailer | .fault _ | .refuse _ _ | .process _ _
  | .forecast _ | .reset => false

/-- The host operations. -/
def isHostOp : Instr → Bool
  | .process _ _ | .forecast _ | .reset => true
  | .start1MLong _ | .start2MLong _ | .start55MLong _ | .start11MLong _ | .start2MShort _
  | .start55MShort _ | .start11MShort _ | .startMalformed07 _ | .startMalformed08 _ _
  | .startMalformed10 _ _ | .startMalformed20 _ _ | .startMalformed40 _ _
  | .startMalformed80 _ _ | .mapDbpsk _ | .mapDqpsk _ | .mapCck55 _ | .mapCck11 _ | .discard _
  | .trailer | .fault _ | .refuse _ _ => false

/-- The size of the symbol group a step writes (R18, R267): 88, 44, 16, 8 or 11 chips, else none. -/
def groupChips : Instr → Nat
  | .mapDbpsk _ => 88
  | .mapDqpsk _ => 44
  | .mapCck55 _ => 16
  | .mapCck11 _ => 8
  | .trailer => 11
  | .start1MLong _ | .start2MLong _ | .start55MLong _ | .start11MLong _ | .start2MShort _
  | .start55MShort _ | .start11MShort _ | .startMalformed07 _ | .startMalformed08 _ _
  | .startMalformed10 _ _ | .startMalformed20 _ _ | .startMalformed40 _ _
  | .startMalformed80 _ _ | .discard _ | .fault _ | .refuse _ _ | .process _ _ | .forecast _
  | .reset => 0

/-- The input bytes a micro-step consumes: one for START, MAP and DISCARD (R72, R261). -/
def bytesTaken : Instr → Nat
  | .start1MLong _ | .start2MLong _ | .start55MLong _ | .start11MLong _ | .start2MShort _
  | .start55MShort _ | .start11MShort _ | .startMalformed07 _ | .startMalformed08 _ _
  | .startMalformed10 _ _ | .startMalformed20 _ _ | .startMalformed40 _ _
  | .startMalformed80 _ _ | .mapDbpsk _ | .mapDqpsk _ | .mapCck55 _ | .mapCck11 _
  | .discard _ => 1
  | .trailer | .fault _ | .refuse _ _ | .process _ _ | .forecast _ | .reset => 0

/-! ## Invariants -/

/-- The reachable-state invariant of R290, with the fault bit clear. -/
def EngineInv (S : Engine) : Prop :=
  S.fault = false ∧ S.dCopy ≤ S.dCount ∧ (S.dAppend = 0 ∨ S.dAppend = 11) ∧ S.rate ≤ 6 ∧
    S.dPsduSymbolCount ≤ 8 * S.dCopy

/-- Every counter of `S` keeps the width R32 gives it: `d_copy` and `d_count` `CNT_W` bits,
`d_psdu_symbol_count` `SYM_W` bits (R8). -/
def registersFit (prm : Params) (S : Engine) : Prop :=
  S.dCopy < 2 ^ prm.cntW ∧ S.dCount < 2 ^ prm.cntW ∧ S.dPsduSymbolCount < 2 ^ prm.symW

/-- What holds of a running call: the loop variables stay inside the window and the capacity, and
the chips of its event stream are exactly the slots written (R266). -/
def CallInv (held : Nat) (c : Call) : Prop :=
  c.consumed ≤ c.window ∧ c.window ≤ held ∧ c.produced ≤ c.cap ∧ chipCount c.events = c.produced

/-- The bytes an answer reports consumed. -/
def replyConsumed : Reply → Nat
  | .returned k _ _ => k
  | .forecast _ => 0

/-- The chips an answer reports produced. -/
def replyProduced : Reply → Nat
  | .returned _ p _ => p
  | .forecast _ => 0

/-- The events an answer delivers. -/
def replyEvents : Reply → List Event
  | .returned _ _ evs => evs
  | .forecast _ => []

/-- The streams agree with the answers given: positions and output are what the returned calls have
consumed and produced (R71, R73, R84). -/
def StreamInv (s : State) : Prop :=
  s.rp = (s.replies.map replyConsumed).sum ∧
  s.wp = (s.replies.map replyProduced).sum ∧
  s.output = s.replies.flatMap replyEvents ∧
  chipCount s.output = s.wp

/-- The invariant of the whole machine. -/
def Inv (s : State) : Prop :=
  EngineInv s.eng ∧ registersFit s.params s.eng ∧
    (∀ c, s.call = some c → CallInv s.input.length c) ∧ StreamInv s

/-- A packet is complete when the engine is back in IDLE; a faulted state never is one (R308). -/
def packetComplete (s : State) : Prop := segment s.params s.eng = .idle

/-! ## States the rules give -/

/-- The state after START with a valid selector (R212). -/
def packetStarted (s : State) (c : Call) (r : Rate) (len : Nat) : State :=
  { s with
    eng :=
      { rate := r, dCopy := 0, dCount := len - 1, dPhaseAcc := 0,
        dPsduSymbolCount := 0, dAppend := 0, fault := s.eng.fault }
    call := some
      { c with
        consumed := c.consumed + 1
        events := c.events ++ [.tag (expectedChips s.params r (len - 1))] } }

/-- The state after START with a malformed selector (R213). -/
def packetRejected (s : State) (c : Call) (sel : Byte) : State :=
  { s with
    eng :=
      { rate := 0, dCopy := 0, dCount := 0, dPhaseAcc := 0, dPsduSymbolCount := 0,
        dAppend := if s.params.malformedTrailer then 0 else 11, fault := s.eng.fault }
    call := some
      { c with consumed := c.consumed + 1, events := c.events ++ [.rejectEv sel 1] } }

/-- The state after a MAP step that wrote `chips` and left the phase `acc` (R230, R232). -/
def byteMapped (s : State) (c : Call) (chips : List Quadrant) (acc : Quadrant) (symbols : Nat) :
    State :=
  { s with
    eng :=
      { s.eng with
        dPhaseAcc := acc
        dCopy := s.eng.dCopy + 1
        dPsduSymbolCount :=
          if segment s.params s.eng = .payload then addSymbols s.params s.eng.dPsduSymbolCount symbols
          else s.eng.dPsduSymbolCount }
    call := some
      { c with
        consumed := c.consumed + 1
        produced := c.produced + chips.length
        events := c.events ++ chips.map .chip } }

/-! ## The chips of each mapper, in closed form -/

/-- The Barker factor of chip `i` as a quadrant: −1 at chips 1, 4, 8, 9 and 10 (R43, R145). -/
def barkerAt (i : Nat) : Quadrant :=
  if i = 1 ∨ i = 4 ∨ i = 8 ∨ i = 9 ∨ i = 10 then 2 else 0

/-- The phase of DBPSK symbol `j`: π for each 1 bit up to bit `j` (R104, R170). -/
def dbpskPhase (acc : Quadrant) (x : Byte) (j : Nat) : Quadrant :=
  acc + BitVec.ofNat 2 (2 * ((List.range (j + 1)).countP fun i => x.getLsbD i))

/-- The 88 chips of DBPSK (R170). -/
def dbpskChips (acc : Quadrant) (x : Byte) : List Quadrant :=
  (List.range 88).map fun t => dbpskPhase acc x (t / 11) + barkerAt (t % 11)

/-- The quarter turns of DQPSK's dibit values 0, 1, 2, 3: 0, 1.5π, 0.5π, π (R105). -/
def dibitTurns (x : Byte) (i : Nat) : Nat :=
  match x.getLsbD (2 * i + 1), x.getLsbD (2 * i) with
  | false, false => 0
  | false, true => 3
  | true, false => 1
  | true, true => 2

/-- The phase of DQPSK symbol `j` (R180). -/
def dqpskPhase (acc : Quadrant) (x : Byte) (j : Nat) : Quadrant :=
  acc + BitVec.ofNat 2 ((List.range (j + 1)).map (dibitTurns x)).sum

/-- The 44 chips of DQPSK (R180). -/
def dqpskChips (acc : Quadrant) (x : Byte) : List Quadrant :=
  (List.range 44).map fun t => dqpskPhase acc x (t / 11) + barkerAt (t % 11)

/-- Which of p2, p3, p4 a CCK lane combines with p1, and whether it carries the fixed π: the lane
table of R151, c0 first. -/
def cckLanes : List (Bool × Bool × Bool × Bool) :=
  [(true, true, true, false), (false, true, true, false), (true, false, true, false),
   (false, false, true, true), (true, true, false, false), (false, true, false, false),
   (true, false, false, true), (false, false, false, false)]

/-- The 8 chips of a CCK symbol by the lane table (R151). -/
def cckByLanes (p1 p2 p3 p4 : Quadrant) : List Quadrant :=
  cckLanes.map fun (u2, u3, u4, half) =>
    p1 + (if u2 then p2 else 0) + (if u3 then p3 else 0) + (if u4 then p4 else 0)
      + (if half then 2 else 0)

/-- The entry of a CCK increment column that bits `[lo+1:lo]` of a byte select (R106, R107). -/
def cckTurn (t : QuadTable) (x : Byte) (lo : Nat) : Quadrant :=
  match x.getLsbD (lo + 1), x.getLsbD lo with
  | false, false => t.at0
  | false, true => t.at1
  | true, false => t.at2
  | true, true => t.at3

/-- The 11 Mbps offset that bits `[lo+1:lo]` of a byte select from 0, π, 0.5π, 1.5π (R107). -/
def qpskOffset (x : Byte) (lo : Nat) : Quadrant := cckTurn ⟨0, 2, 1, 3⟩ x lo

/-- The phase after half 0 of a 5.5 Mbps byte (R106, R185). -/
def cck55Mid (prm : Params) (acc : Quadrant) (x : Byte) : Quadrant :=
  acc + cckTurn prm.cckIncEven x 0

/-- The phase after both halves of a 5.5 Mbps byte (R106, R185). -/
def cck55End (prm : Params) (acc : Quadrant) (x : Byte) : Quadrant :=
  cck55Mid prm acc x + cckTurn prm.cckIncOdd x 4

/-- The 16 chips of a 5.5 Mbps byte (R106, R185). -/
def cck55Chips (prm : Params) (acc : Quadrant) (x : Byte) : List Quadrant :=
  cckByLanes (cck55Mid prm acc x) (if x.getLsbD 2 then 3 else 1) 0 (if x.getLsbD 3 then 2 else 0)
    ++ cckByLanes (cck55End prm acc x) (if x.getLsbD 6 then 3 else 1) 0
      (if x.getLsbD 7 then 2 else 0)

/-- The phase after an 11 Mbps byte; `odd` is bit 0 of the payload counter (R107, R190, R191). -/
def cck11End (prm : Params) (odd : Bool) (acc : Quadrant) (x : Byte) : Quadrant :=
  acc + cckTurn (if odd then prm.cckIncOdd else prm.cckIncEven) x 0

/-- The 8 chips of an 11 Mbps byte (R107, R190). -/
def cck11Chips (prm : Params) (odd : Bool) (acc : Quadrant) (x : Byte) : List Quadrant :=
  cckByLanes (cck11End prm odd acc x) (qpskOffset x 2) (qpskOffset x 4) (qpskOffset x 6)

/-! ## Whole packets and whole runs -/

/-- The input items of a packet: the annotated selector and its data bytes (R113 `PKT`). -/
def packetItems (sel : Byte) (data : List Byte) : List InItem :=
  ⟨sel, some (data.length + 1)⟩ :: data.map fun x => ⟨x, none⟩

/-- The data byte index at which the payload of a packet begins (R211). -/
def payloadStart (prm : Params) (r : Rate) : Nat :=
  if shortPreamble r then 15 else prm.long1MBytes

/-- All the phase increments that data byte `j` of a packet of rate `r` adds (R198): of its eight
bits, its four dibits, its two halves, or its one symbol, by the segment `j` lies in (R211). -/
def byteTurns (prm : Params) (r : Rate) (j : Nat) (x : Byte) : Quadrant :=
  if j < preambleBytes prm r then dbpskPhase 0 x 7
  else if j < payloadStart prm r then dqpskPhase 0 x 3
  else match payloadMapper r with
    | some .dbpsk => dbpskPhase 0 x 7
    | some .dqpsk => dqpskPhase 0 x 3
    | some .cck55 => cck55End prm 0 x
    | some .cck11 => cck11End prm ((j - payloadStart prm r) % 2 == 1) 0 x
    | none => 0

/-- The sum of the increments of a packet's data bytes, in byte order, mod 4 (R198). -/
def packetTurns (prm : Params) (r : Rate) (data : List Byte) : Quadrant :=
  data.zipIdx.foldl (fun acc xj => acc + byteTurns prm r xj.2 xj.1) 0

/-- Successive calls, each with its window length and capacity (R88, R291). -/
def runCalls : List (Nat × Nat) → State → Host.Outcome State Fault Refusal
  | [], s => .next s
  | (n, cap) :: calls, s =>
    match exec (.process n cap) s with
    | .next s' => runCalls calls s'
    | .fault r => .fault r
    | .refused r => .refused r

/-- A capacity no run over the held input can use up: 88 chips for each byte and one owed trailer
(R351: 88 is the largest group). -/
def ampleCap (s : State) : Nat := 88 * s.input.length + 11

end Sys2Proof.Machine
end

