-- ==== Sys2Proof/Laws/Ops.lean ====
section
/-! SUPPORT. What each shared operation can do, said once: the provers cite these instead of unfolding
the operations. -/

namespace Sys2Proof.Machine

/-! ## Widths -/

/-- The annotations that `CNT_W` admits (R102). -/
theorem admissibleLength_iff {cntW len : Nat} :
    admissibleLength cntW len = true ↔ 1 ≤ len ∧ len ≤ 2 ^ cntW := by
  simp [admissibleLength]

/-- A rate's symbols per byte are at most 8 (R44). -/
theorem symbolsPerByte_le (rate : Rate) : symbolsPerByte rate ≤ 8 := by
  revert rate
  decide

/-! ## Chips in an event stream -/

@[simp] theorem chipCount_nil : chipCount [] = 0 := rfl

@[simp] theorem chipCount_append (a b : List Event) :
    chipCount (a ++ b) = chipCount a + chipCount b := by
  simp [chipCount, List.countP_append]

@[simp] theorem chipCount_map_chip (qs : List Quadrant) :
    chipCount (qs.map .chip) = qs.length := by
  induction qs with
  | nil => rfl
  | cons q qs ih =>
    rw [List.map_cons, List.length_cons, ← ih]
    exact List.countP_cons_of_pos rfl

@[simp] theorem chipCount_tag (e : Nat) : chipCount [.tag e] = 0 := rfl

@[simp] theorem chipCount_rejectEv (sel : Byte) (code : Nat) :
    chipCount [.rejectEv sel code] = 0 := rfl

@[simp] theorem chipCount_fatalEv (code : Nat) : chipCount [.fatalEv code] = 0 := rfl

/-! ## Symbols and mappers -/

@[simp] theorem spread_length (k : Quadrant) : (spread k).length = 11 := rfl

@[simp] theorem cckSymbol_length (p1 p2 p3 p4 : Quadrant) :
    (cckSymbol p1 p2 p3 p4).length = 8 := rfl

@[simp] theorem trailerTable_length : trailerTable.length = 11 := rfl

/-- The loop of R170 and R180 writes 11 chips for each increment. -/
@[simp] theorem spreadSymbols_chips_length (acc : Quadrant) (incs : List Quadrant) :
    (spreadSymbols acc incs).chips.length = 11 * incs.length := by
  induction incs generalizing acc with
  | nil => rfl
  | cons inc incs ih => simp [spreadSymbols, ih]; omega

/-- The loop of R170 and R180 leaves the accumulator increased by all the increments. -/
theorem spreadSymbols_acc (acc : Quadrant) (incs : List Quadrant) :
    (spreadSymbols acc incs).acc = incs.foldl qadd acc := by
  induction incs generalizing acc with
  | nil => rfl
  | cons inc incs ih => simp [spreadSymbols, ih]

@[simp] theorem mapBitsDbpsk_chips_length (acc : Quadrant) (x : Byte) :
    (mapBitsDbpsk acc x).chips.length = 88 := by
  simp [mapBitsDbpsk]

@[simp] theorem mapDibitsDqpsk_chips_length (acc : Quadrant) (x : Byte) :
    (mapDibitsDqpsk acc x).chips.length = 44 := by
  simp [mapDibitsDqpsk]

@[simp] theorem mapHalvesCck55_chips_length (prm : Params) (acc : Quadrant) (x : Byte) :
    (mapHalvesCck55 prm acc x).chips.length = 16 := by
  simp [mapHalvesCck55, mapHalfCck55]

@[simp] theorem mapSymbolCck11_chips_length (prm : Params) (odd : Bool) (acc : Quadrant)
    (x : Byte) : (mapSymbolCck11 prm odd acc x).chips.length = 8 := by
  simp [mapSymbolCck11]

/-! ## Micro-steps -/

section
variable {i : Instr} {s t : State} {run : Call → State}

/-- A micro-step that answers a next state was the candidate of a running call. -/
theorem asCandidate_next :
    asCandidate i s run = .next t ↔
      ∃ c, s.call = some c ∧ candidateIn s c = some i ∧ run c = t := by
  unfold asCandidate
  cases s.call with
  | none => simp
  | some c => by_cases hc : candidateIn s c = some i <;> simp [hc]

/-- A micro-step never stops with a fault. -/
theorem asCandidate_no_fault (r : Fault) : asCandidate i s run ≠ .fault r := by
  unfold asCandidate
  cases s.call with
  | none => simp
  | some c => by_cases hc : candidateIn s c = some i <;> simp [hc]

/-- A step that writes chips either has the room it needs and runs, or the call returns. -/
theorem asCandidateIfFits_next :
    asCandidateIfFits i s run = .next t ↔
      ∃ c, s.call = some c ∧ candidateIn s c = some i ∧
        ((slotsNeeded s.params s.eng i ≤ freeSlots c ∧ run c = t) ∨
          (freeSlots c < slotsNeeded s.params s.eng i ∧ returnCall s = t)) := by
  unfold asCandidateIfFits
  rw [asCandidate_next]
  constructor
  · rintro ⟨c, hc, hi, ht⟩
    refine ⟨c, hc, hi, ?_⟩
    by_cases hf : slotsNeeded s.params s.eng i ≤ freeSlots c
    · exact .inl ⟨hf, by simpa [hf] using ht⟩
    · exact .inr ⟨by omega, by simpa [hf] using ht⟩
  · rintro ⟨c, hc, hi, ⟨hf, ht⟩ | ⟨hf, ht⟩⟩
    · exact ⟨c, hc, hi, by simpa [hf] using ht⟩
    · exact ⟨c, hc, hi, by simpa [Nat.not_le.mpr hf] using ht⟩

/-- A START with a valid selector that answers a next state has started the packet (R212). -/
theorem startValid_next {r : Rate} {len : Nat} :
    startValid i r len s = .next t ↔
      admissibleLength s.params.cntW len = true ∧
        ∃ c, s.call = some c ∧ candidateIn s c = some i ∧ packetStarted s c r len = t := by
  unfold startValid
  by_cases hl : admissibleLength s.params.cntW len = true
  · simp only [hl, if_true, asCandidate_next, true_and]
    exact Iff.rfl
  · simp [hl]

/-- A START with a malformed selector that answers a next state has rejected the packet (R213). -/
theorem startMalformed_next {sel : Byte} {len : Nat} :
    startMalformed i sel len s = .next t ↔
      admissibleLength s.params.cntW len = true ∧
        ∃ c, s.call = some c ∧ candidateIn s c = some i ∧ packetRejected s c sel = t := by
  unfold startMalformed
  by_cases hl : admissibleLength s.params.cntW len = true
  · simp only [hl, if_true, asCandidate_next, true_and]
    exact Iff.rfl
  · simp [hl]

/-- A MAP that answers a next state has mapped the byte, or has let the call return for want of
capacity (R230, R263). -/
theorem mapStep_next {m : Mapped} :
    mapStep i m s = .next t ↔
      ∃ c, s.call = some c ∧ candidateIn s c = some i ∧
        ((slotsNeeded s.params s.eng i ≤ freeSlots c ∧
            byteMapped s c m.chips m.acc (symbolsPerByte s.eng.rate) = t) ∨
          (freeSlots c < slotsNeeded s.params s.eng i ∧ returnCall s = t)) := by
  unfold mapStep
  rw [asCandidateIfFits_next]
  exact Iff.rfl

end

/-! ## Step selection -/

section
variable {prm : Params} {S : Engine} {head : Option InItem} {i : Instr} {free : Nat}

/-- Everything a decoded byte can be: an annotated byte in a segment that reads one, a discarded
byte in IDLE, or a data byte of the segment's mapper (R103, R110). -/
theorem decode_ok_cases {cntW : Nat} {seg : Segment} {rate : Rate} {item : InItem}
    (h : decode cntW seg rate item = .ok i) :
    readsAnnotated seg = true ∧
    ((∃ len, item.tag = some len ∧ i = decodeAnnotated cntW item.byte len) ∨
      (item.tag = none ∧ seg = .idle ∧ i = .discard item.byte) ∨
      (item.tag = none ∧ ∃ m, mapperAt seg rate = some m ∧ i = mapInstr m item.byte)) := by
  obtain ⟨x, tag⟩ := item
  cases seg <;> cases tag <;>
    simp only [decode, decodeData, Except.ok.injEq, reduceCtorEq] at h <;>
    refine ⟨rfl, ?_⟩
  case idle.none => exact .inr (.inl ⟨rfl, rfl, h.symm⟩)
  case idle.some len => exact .inl ⟨len, rfl, h.symm⟩
  case preamble.some len => exact .inl ⟨len, rfl, h.symm⟩
  case header.some len => exact .inl ⟨len, rfl, h.symm⟩
  case payload.some len => exact .inl ⟨len, rfl, h.symm⟩
  all_goals
    refine .inr (.inr ⟨rfl, ?_⟩)
    split at h
    · next m hm => exact ⟨m, hm, (Except.ok.inj h).symm⟩
    · cases h

/-- Everything a candidate can be, with the segment it is one in (R262, R309). -/
theorem candidate_cases (h : candidate prm S head = some i) :
    (segment prm S = .badRate ∧ i = .fault .badRateState) ∨
    (segment prm S = .badState ∧ i = .fault .badInvariant) ∨
    (segment prm S = .trailer ∧ i = .trailer) ∨
    (readsAnnotated (segment prm S) = true ∧
      ∃ item, head = some item ∧ decode prm.cntW (segment prm S) S.rate item = .ok i) := by
  unfold candidate at h
  cases hs : segment prm S <;> simp only [hs] at h
  case faulted => cases h
  case badRate => exact .inl ⟨rfl, (Option.some.inj h).symm⟩
  case badState => exact .inr (.inl ⟨rfl, (Option.some.inj h).symm⟩)
  case trailer => exact .inr (.inr (.inl ⟨rfl, (Option.some.inj h).symm⟩))
  all_goals
    refine .inr (.inr (.inr ⟨rfl, ?_⟩))
    cases head with
    | none => cases h
    | some item =>
      refine ⟨item, rfl, ?_⟩
      simp only at h
      split at h
      · next j hj => rw [hj, Option.some.inj h]
      · cases h

/-- What is selected is the candidate, and its chips fit (R262, R263). -/
theorem select_eq_some :
    select prm S head free = some i ↔
      candidate prm S head = some i ∧ slotsNeeded prm S i ≤ free := by
  unfold select
  cases candidate prm S head with
  | none => simp
  | some j =>
    by_cases hf : slotsNeeded prm S j ≤ free
    · simp only [hf, if_true, Option.some.injEq]
      constructor
      · rintro rfl; exact ⟨rfl, hf⟩
      · exact fun h => h.1
    · simp only [hf, if_false, Option.some.injEq]
      constructor
      · intro h; cases h
      · rintro ⟨rfl, h⟩; exact absurd h hf

end

/-- Inside a call a step is performed exactly as `exec` gives it. -/
theorem performStep_eq_exec {i : Instr} (h : isHostOp i = false) (s : State) :
    performStep i s = exec i s := by
  cases i <;> first | rfl | cases h

/-- No instruction stops with a fault before the loop of a call is looked at: a single micro-step
answers a next state or a refusal. -/
theorem performStep_no_fault (i : Instr) (s : State) (r : Fault) : performStep i s ≠ .fault r := by
  cases i <;>
    simp only [performStep, execStart1MLong, execStart2MLong, execStart55MLong, execStart11MLong,
      execStart2MShort, execStart55MShort, execStart11MShort, execStartMalformed07,
      execStartMalformed08, execStartMalformed10, execStartMalformed20, execStartMalformed40,
      execStartMalformed80, execMapDbpsk, execMapDqpsk, execMapCck55, execMapCck11, execDiscard,
      execTrailer, execFault, execRefuse, startValid, startMalformed, mapStep,
      asCandidateIfFits] <;>
    first
    | exact asCandidate_no_fault r
    | (split
       · exact asCandidate_no_fault r
       · simp)
    | simp

/-- One turn of the loop of R261. -/
theorem runCall_succ (fuel : Nat) {s : State} {c : Call} (h : s.call = some c) :
    runCall (fuel + 1) s =
      match selectIn s c with
      | none => .next (returnCall s)
      | some i =>
        match performStep i s with
        | .next s' => runCall fuel s'
        | .fault r => .fault r
        | .refused r => .refused r := by
  cases s
  cases h
  rfl

/-- What every selected step keeps holds where the loop of a call ends: the answer is the return of
a state that has it. -/
theorem runCall_next_of_kept {P : State → Prop}
    (kept : ∀ s c i s', P s → s.call = some c → selectIn s c = some i →
      performStep i s = .next s' → P s') :
    ∀ (fuel : Nat) (s t : State), P s → runCall fuel s = .next t → ∃ s', P s' ∧ t = returnCall s'
  | 0, s, t, hp, h => ⟨s, hp, (Host.Outcome.next.inj h).symm⟩
  | fuel + 1, s, t, hp, h => by
    cases hc : s.call with
    | none =>
      simp only [runCall, hc, Host.Outcome.next.injEq] at h
      exact ⟨s, hp, by rw [returnCall_of_none hc, h]⟩
    | some c =>
      rw [runCall_succ fuel hc] at h
      cases hi : selectIn s c with
      | none => exact ⟨s, hp, by simpa [hi] using h.symm⟩
      | some i =>
        cases hr : performStep i s with
        | next s' =>
          simp only [hi, hr] at h
          exact runCall_next_of_kept kept fuel s' t (kept s c i s' hp hc hi hr) h
        | fault r => simp [hi, hr] at h
        | refused r => simp [hi, hr] at h

end Sys2Proof.Machine
end

