-- ==== Sys2Proof/Laws/PerInstr.lean ====
section
/-! SUPPORT. A family of statements with one lemma per constructor: the byte an instruction encodes to has
exactly the bits that its row of spec/opcode_table.json fixes, and carries an annotation exactly where
the row's format is SEL. -/

namespace Sys2Proof.Laws

/-- "mask" of the instruction's row; 0 where the row has none. -/
def rowMask : Instr → Byte
  | .start1MLong _ => 0xFF
  | .start2MLong _ => 0xFF
  | .start55MLong _ => 0xFF
  | .start11MLong _ => 0xFF
  | .start2MShort _ => 0xFF
  | .start55MShort _ => 0xFF
  | .start11MShort _ => 0xFF
  | .startMalformed07 _ => 0xFF
  | .startMalformed08 _ _ => 0xF8
  | .startMalformed10 _ _ => 0xF0
  | .startMalformed20 _ _ => 0xE0
  | .startMalformed40 _ _ => 0xC0
  | .startMalformed80 _ _ => 0x80
  | .mapDbpsk _ => 0x00
  | .mapDqpsk _ => 0x00
  | .mapCck55 _ => 0x00
  | .mapCck11 _ => 0x00
  | .discard _ => 0x00
  | .trailer => 0x00
  | .fault _ => 0x00
  | .refuse _ _ => 0x00
  | .process _ _ => 0x00
  | .forecast _ => 0x00
  | .reset => 0x00

/-- "match" of the instruction's row; 0 where the row has none. -/
def rowBits : Instr → Byte
  | .start1MLong _ => 0x00
  | .start2MLong _ => 0x01
  | .start55MLong _ => 0x02
  | .start11MLong _ => 0x03
  | .start2MShort _ => 0x04
  | .start55MShort _ => 0x05
  | .start11MShort _ => 0x06
  | .startMalformed07 _ => 0x07
  | .startMalformed08 _ _ => 0x08
  | .startMalformed10 _ _ => 0x10
  | .startMalformed20 _ _ => 0x20
  | .startMalformed40 _ _ => 0x40
  | .startMalformed80 _ _ => 0x80
  | .mapDbpsk _ => 0x00
  | .mapDqpsk _ => 0x00
  | .mapCck55 _ => 0x00
  | .mapCck11 _ => 0x00
  | .discard _ => 0x00
  | .trailer => 0x00
  | .fault _ => 0x00
  | .refuse _ _ => 0x00
  | .process _ _ => 0x00
  | .forecast _ => 0x00
  | .reset => 0x00

/-- Whether the row's "format" is SEL: a byte with an annotation (R101). -/
def rowAnnotated : Instr → Bool
  | .start1MLong _ => true
  | .start2MLong _ => true
  | .start55MLong _ => true
  | .start11MLong _ => true
  | .start2MShort _ => true
  | .start55MShort _ => true
  | .start11MShort _ => true
  | .startMalformed07 _ => true
  | .startMalformed08 _ _ => true
  | .startMalformed10 _ _ => true
  | .startMalformed20 _ _ => true
  | .startMalformed40 _ _ => true
  | .startMalformed80 _ _ => true
  | .mapDbpsk _ => false
  | .mapDqpsk _ => false
  | .mapCck55 _ => false
  | .mapCck11 _ => false
  | .discard _ => false
  | .trailer => false
  | .fault _ => false
  | .refuse _ _ => true
  | .process _ _ => false
  | .forecast _ => false
  | .reset => false

/-- The encoding has the bits of the row and the row's kind of annotation. -/
def EncodesInRow.Statement (i : Instr) : Prop :=
  ∀ item, encode i = some item →
    item.byte &&& rowMask i = rowBits i ∧ item.tag.isSome = rowAnnotated i

theorem EncodesInRow.start1MLong (len : Nat) : EncodesInRow.Statement (.start1MLong len) := by
  intro item h
  cases h
  exact ⟨by simp [rowMask, rowBits], rfl⟩

theorem EncodesInRow.start2MLong (len : Nat) : EncodesInRow.Statement (.start2MLong len) := by
  intro item h
  cases h
  exact ⟨by simp [rowMask, rowBits], rfl⟩

theorem EncodesInRow.start55MLong (len : Nat) : EncodesInRow.Statement (.start55MLong len) := by
  intro item h
  cases h
  exact ⟨by simp [rowMask, rowBits], rfl⟩

theorem EncodesInRow.start11MLong (len : Nat) : EncodesInRow.Statement (.start11MLong len) := by
  intro item h
  cases h
  exact ⟨by simp [rowMask, rowBits], rfl⟩

theorem EncodesInRow.start2MShort (len : Nat) : EncodesInRow.Statement (.start2MShort len) := by
  intro item h
  cases h
  exact ⟨by simp [rowMask, rowBits], rfl⟩

theorem EncodesInRow.start55MShort (len : Nat) : EncodesInRow.Statement (.start55MShort len) := by
  intro item h
  cases h
  exact ⟨by simp [rowMask, rowBits], rfl⟩

theorem EncodesInRow.start11MShort (len : Nat) : EncodesInRow.Statement (.start11MShort len) := by
  intro item h
  cases h
  exact ⟨by simp [rowMask, rowBits], rfl⟩

theorem EncodesInRow.startMalformed07 (len : Nat) : EncodesInRow.Statement (.startMalformed07 len) := by
  intro item h
  cases h
  exact ⟨by simp [rowMask, rowBits], rfl⟩

theorem EncodesInRow.startMalformed08 (low : BitVec 3) (len : Nat) : EncodesInRow.Statement (.startMalformed08 low len) := by
  intro item h
  cases h
  refine ⟨?_, rfl⟩
  simp only [rowMask, rowBits]
  revert low
  decide

theorem EncodesInRow.startMalformed10 (low : BitVec 4) (len : Nat) : EncodesInRow.Statement (.startMalformed10 low len) := by
  intro item h
  cases h
  refine ⟨?_, rfl⟩
  simp only [rowMask, rowBits]
  revert low
  decide

theorem EncodesInRow.startMalformed20 (low : BitVec 5) (len : Nat) : EncodesInRow.Statement (.startMalformed20 low len) := by
  intro item h
  cases h
  refine ⟨?_, rfl⟩
  simp only [rowMask, rowBits]
  revert low
  decide

theorem EncodesInRow.startMalformed40 (low : BitVec 6) (len : Nat) : EncodesInRow.Statement (.startMalformed40 low len) := by
  intro item h
  cases h
  refine ⟨?_, rfl⟩
  simp only [rowMask, rowBits]
  revert low
  decide

theorem EncodesInRow.startMalformed80 (low : BitVec 7) (len : Nat) : EncodesInRow.Statement (.startMalformed80 low len) := by
  intro item h
  cases h
  refine ⟨?_, rfl⟩
  simp only [rowMask, rowBits]
  revert low
  decide

theorem EncodesInRow.mapDbpsk (x : Byte) : EncodesInRow.Statement (.mapDbpsk x) := by
  intro item h
  cases h
  exact ⟨by simp [rowMask, rowBits], rfl⟩

theorem EncodesInRow.mapDqpsk (x : Byte) : EncodesInRow.Statement (.mapDqpsk x) := by
  intro item h
  cases h
  exact ⟨by simp [rowMask, rowBits], rfl⟩

theorem EncodesInRow.mapCck55 (x : Byte) : EncodesInRow.Statement (.mapCck55 x) := by
  intro item h
  cases h
  exact ⟨by simp [rowMask, rowBits], rfl⟩

theorem EncodesInRow.mapCck11 (x : Byte) : EncodesInRow.Statement (.mapCck11 x) := by
  intro item h
  cases h
  exact ⟨by simp [rowMask, rowBits], rfl⟩

theorem EncodesInRow.discard (x : Byte) : EncodesInRow.Statement (.discard x) := by
  intro item h
  cases h
  exact ⟨by simp [rowMask, rowBits], rfl⟩

theorem EncodesInRow.trailer : EncodesInRow.Statement .trailer := by
  intro item h
  cases h

theorem EncodesInRow.fault (cause : FatalCause) : EncodesInRow.Statement (.fault cause) := by
  intro item h
  cases h

theorem EncodesInRow.refuse (sel : Byte) (len : Nat) : EncodesInRow.Statement (.refuse sel len) := by
  intro item h
  cases h
  exact ⟨by simp [rowMask, rowBits], rfl⟩

theorem EncodesInRow.process (n : Nat) (cap : Nat) : EncodesInRow.Statement (.process n cap) := by
  intro item h
  cases h

theorem EncodesInRow.forecast (n : Nat) : EncodesInRow.Statement (.forecast n) := by
  intro item h
  cases h

theorem EncodesInRow.reset : EncodesInRow.Statement .reset := by
  intro item h
  cases h

end Sys2Proof.Laws
end

