-- ==== Sys2Proof/Certificates/Slice0/Obligations.lean ====
section
/-! DEFINITION. The statements for the provers. Each docstring names the rules it formalises and, where it
rests on a choice, whose choice that is and the log entry that records it. -/

open Sys2Proof Sys2Proof.Machine

/-- What a step does around `exec` (43 section 1, R261, R262). The queue of host operations (log 5) and a
whole call as one step (log 6) are the model's choices. That the state stays with nothing pending and
the bit clear is read from R47 and R325 (log 20); the fault outcome is read from R308, "a model treats
it as a fault outcome" (log 13). -/
def Obligations.StepRunsSelectedInstruction : Prop :=
  ∀ s : State,
    (∀ c i, s.call = some c → selectIn s c = some i → step s = exec i s) ∧
    (∀ c, s.call = some c → selectIn s c = none → step s = .next (returnCall s)) ∧
    (∀ op rest, s.call = none → s.ops = op :: rest →
      step s = exec (hostInstr op) { s with ops := rest }) ∧
    (s.call = none → s.ops = [] → s.eng.fault = false → step s = .next s) ∧
    (s.call = none → s.ops = [] → s.eng.fault = true → step s = .fault .fatal)

/-- The step executes what the byte at the read position decodes to (R110, R262). -/
def Obligations.StepRunsTheDecodedByte : Prop :=
  ∀ (s : State) (c : Call) (item : InItem) (i : Instr),
    s.call = some c → readsAnnotated (segment s.params s.eng) = true →
    headItem s c = some item → decode s.params.cntW (segment s.params s.eng) s.eng.rate item = .ok i →
    slotsNeeded s.params s.eng i ≤ c.cap - c.produced →
    step s = exec i s

/-- The rate selector encoding (R100). -/
def Obligations.SelectorBytesDecode : Prop :=
  (∀ w len : Nat, 1 ≤ len → len ≤ 2 ^ w →
    decode w .idle 0 ⟨0x00, some len⟩ = .ok (.start1MLong len) ∧
    decode w .idle 0 ⟨0x01, some len⟩ = .ok (.start2MLong len) ∧
    decode w .idle 0 ⟨0x02, some len⟩ = .ok (.start55MLong len) ∧
    decode w .idle 0 ⟨0x03, some len⟩ = .ok (.start11MLong len) ∧
    decode w .idle 0 ⟨0x04, some len⟩ = .ok (.start2MShort len) ∧
    decode w .idle 0 ⟨0x05, some len⟩ = .ok (.start55MShort len) ∧
    decode w .idle 0 ⟨0x06, some len⟩ = .ok (.start11MShort len) ∧
    (∀ x : Byte, 7 ≤ x.toNat →
      (∃ i, decode w .idle 0 ⟨x, some len⟩ = .ok i ∧ encode i = some ⟨x, some len⟩ ∧
        (i = .startMalformed07 len ∨ (∃ low, i = .startMalformed08 low len) ∨
          (∃ low, i = .startMalformed10 low len) ∨ (∃ low, i = .startMalformed20 low len) ∨
          (∃ low, i = .startMalformed40 low len) ∨ (∃ low, i = .startMalformed80 low len))))) ∧
  (longPreamble 0 = true ∧ payloadMapper 0 = some .dbpsk) ∧
  (longPreamble 1 = true ∧ payloadMapper 1 = some .dqpsk) ∧
  (longPreamble 2 = true ∧ payloadMapper 2 = some .cck55) ∧
  (longPreamble 3 = true ∧ payloadMapper 3 = some .cck11) ∧
  (shortPreamble 4 = true ∧ payloadMapper 4 = some .dqpsk) ∧
  (shortPreamble 5 = true ∧ payloadMapper 5 = some .cck55) ∧
  (shortPreamble 6 = true ∧ payloadMapper 6 = some .cck11)

/-- A sanity statement on words written from R103 to R108 and R110. -/
def Obligations.DataBytesDecode : Prop :=
  decode 32 .preamble 6 ⟨0b00000001, none⟩ = .ok (.mapDbpsk 0x01) ∧
  decode 32 .header 5 ⟨0b00011011, none⟩ = .ok (.mapDqpsk 0x1B) ∧
  decode 32 .payload 5 ⟨0b10100101, none⟩ = .ok (.mapCck55 0xA5) ∧
  decode 32 .payload 3 ⟨0b11100100, none⟩ = .ok (.mapCck11 0xE4) ∧
  decode 32 .idle 0 ⟨0b01010101, none⟩ = .ok (.discard 0x55) ∧
  decode 32 .idle 0 ⟨0b00000011, some 0⟩ = .ok (.refuse 0x03 0) ∧
  decode 32 .trailer 0 ⟨0b00000011, some 5⟩ = .error .trailerFirst

/-- Decode and encode agree (R100, R103 to R108, R110; the table's condition column). -/
def Obligations.DecodeInvertsEncode : Prop :=
  ∀ (w : Nat) (i : Instr) (item : InItem), i.wellFormed w = true → encode i = some item →
    (∀ seg rate, i.readIn seg rate = true → decode w seg rate item = .ok i) ∧
    ∃ seg rate, i.readIn seg rate = true

/-- No bit of an input item is dropped by decoding (R110, R111(d)). -/
def Obligations.EncodeInvertsDecode : Prop :=
  ∀ (w : Nat) (seg : Segment) (rate : Rate) (item : InItem) (i : Instr),
    decode w seg rate item = .ok i →
      encode i = some item ∧ i.wellFormed w = true ∧ i.readIn seg rate = true

/-- How a table word comes to run is the model's choice (log 5): the byte carries annotation 1. -/
def Obligations.PlacedTableWordRuns : Prop :=
  ∀ w : Nat, w < 256 →
    ∃ i t, decodeTableWord 8 w = some i ∧
      step (State.reset.withFetchWord 8 w) = exec i (State.reset.withFetchWord 8 w) ∧
      exec i (State.reset.withFetchWord 8 w) = .next t

/-- What a step may refuse, and what must then stand at the head or in the presented window (R13, R102,
R214, R262, R292). The names of the other refusals, the fault outcome, the queue of host operations and
a whole call as one step are the model's (log 8, log 11, log 13, log 5, log 6), as is the window cut to
the bytes held (log 7). -/
def Obligations.StepRefusesOnlyBadAnnotations : Prop :=
  ∀ s : State,
    (∀ r, step s = .refused r → r = .inadmissibleLength ∧
      ((∃ c x len, s.call = some c ∧ readsAnnotated (segment s.params s.eng) = true ∧
          headItem s c = some ⟨x, some len⟩ ∧ (len = 0 ∨ 2 ^ s.params.cntW < len)) ∨
        (s.call = none ∧ ∃ n cap rest, s.ops = .process n cap :: rest ∧
          ∃ item ∈ s.input.take n, ∃ len, item.tag = some len ∧
            (len = 0 ∨ 2 ^ s.params.cntW < len)))) ∧
    (∀ f, step s = .fault f → s.eng.fault = true ∧ s.call = none ∧ s.ops = [])

/-- START with a valid selector, from IDLE and mid-packet (R212, R215, R221). `d_append` at START and the
mid-packet restart are the spec's decisions D16 and D14 (log 22). -/
def Obligations.ValidSelectorStartsPacket : Prop :=
  ∀ (s : State) (c : Call) (x : Byte) (len : Nat),
    s.call = some c → headItem s c = some ⟨x, some len⟩ →
    readsAnnotated (segment s.params s.eng) = true → 1 ≤ len → len ≤ 2 ^ s.params.cntW →
    (x = 0 → exec (.start1MLong len) s = .next (packetStarted s c 0 len)) ∧
    (x = 1 → exec (.start2MLong len) s = .next (packetStarted s c 1 len)) ∧
    (x = 2 → exec (.start55MLong len) s = .next (packetStarted s c 2 len)) ∧
    (x = 3 → exec (.start11MLong len) s = .next (packetStarted s c 3 len)) ∧
    (x = 4 → exec (.start2MShort len) s = .next (packetStarted s c 4 len)) ∧
    (x = 5 → exec (.start55MShort len) s = .next (packetStarted s c 5 len)) ∧
    (x = 6 → exec (.start11MShort len) s = .next (packetStarted s c 6 len))

/-- START with a malformed selector (R213, R301). The event and the trailer flag are the spec's decisions
D16 and D17 (log 22). -/
def Obligations.MalformedSelectorIsRejected : Prop :=
  ∀ (s : State) (c : Call) (x : Byte) (len : Nat),
    s.call = some c → headItem s c = some ⟨x, some len⟩ →
    readsAnnotated (segment s.params s.eng) = true → 1 ≤ len → len ≤ 2 ^ s.params.cntW →
    (x = 0x07 → exec (.startMalformed07 len) s = .next (packetRejected s c x)) ∧
    (∀ low : BitVec 3, x = (0b00001#5 ++ low : BitVec 8) →
      exec (.startMalformed08 low len) s = .next (packetRejected s c x)) ∧
    (∀ low : BitVec 4, x = (0b0001#4 ++ low : BitVec 8) →
      exec (.startMalformed10 low len) s = .next (packetRejected s c x)) ∧
    (∀ low : BitVec 5, x = (0b001#3 ++ low : BitVec 8) →
      exec (.startMalformed20 low len) s = .next (packetRejected s c x)) ∧
    (∀ low : BitVec 6, x = (0b01#2 ++ low : BitVec 8) →
      exec (.startMalformed40 low len) s = .next (packetRejected s c x)) ∧
    (∀ low : BitVec 7, x = (0b1#1 ++ low : BitVec 8) →
      exec (.startMalformed80 low len) s = .next (packetRejected s c x))

/-- The stop of REFUSE: "A START whose annotation is L = 0 or L > 2^CNT_W is refused" (R214; D13, log 22). -/
def Obligations.InadmissibleAnnotationIsRefused : Prop :=
  (∀ sel len s, exec (.refuse sel len) s = .refused .inadmissibleLength) ∧
  (∀ (i : Instr) (s : State), isStart i = true → i.wellFormed s.params.cntW = false →
    exec i s = .refused .inadmissibleLength) ∧
  (∀ (s : State) (c : Call) (x : Byte) (len : Nat),
    s.call = some c → headItem s c = some ⟨x, some len⟩ →
    readsAnnotated (segment s.params s.eng) = true → (len = 0 ∨ 2 ^ s.params.cntW < len) →
    step s = .refused .inadmissibleLength)

/-- The 1 Mbps mapper in closed form (R170, R104, R230, R232). The chip order inside a group is the
spec's decision D4 (log 22). -/
def Obligations.DbpskMapsEightBits : Prop :=
  ∀ (s : State) (c : Call) (x : Byte),
    s.call = some c → headItem s c = some ⟨x, none⟩ →
    (segment s.params s.eng = .preamble ∨
      (segment s.params s.eng = .payload ∧ s.eng.rate = 0)) →
    88 ≤ c.cap - c.produced →
    exec (.mapDbpsk x) s =
      .next (byteMapped s c (dbpskChips s.eng.dPhaseAcc x) (dbpskPhase s.eng.dPhaseAcc x 7) 8)

/-- The 2 Mbps mapper in closed form (R180, R105, R230, R232). The dibit weight and the chip order are
the spec's decisions D5 and D4 (log 22). -/
def Obligations.DqpskMapsFourDibits : Prop :=
  ∀ (s : State) (c : Call) (x : Byte),
    s.call = some c → headItem s c = some ⟨x, none⟩ →
    (segment s.params s.eng = .header ∨
      (segment s.params s.eng = .payload ∧ (s.eng.rate = 1 ∨ s.eng.rate = 4))) →
    44 ≤ c.cap - c.produced →
    exec (.mapDqpsk x) s =
      .next (byteMapped s c (dqpskChips s.eng.dPhaseAcc x) (dqpskPhase s.eng.dPhaseAcc x 3) 4)

/-- The 5.5 Mbps mapper by the lane table (R185, R106, R151, R230). The nibble layout, the columns and
the chip order are the spec's decisions D6, D7 and D4 (log 22); the increment table is a parameter. -/
def Obligations.Cck55MapsTwoHalves : Prop :=
  ∀ (s : State) (c : Call) (x : Byte),
    s.call = some c → headItem s c = some ⟨x, none⟩ →
    (segment s.params s.eng = .payload ∧ (s.eng.rate = 2 ∨ s.eng.rate = 5)) →
    16 ≤ c.cap - c.produced →
    exec (.mapCck55 x) s =
      .next (byteMapped s c (cck55Chips s.params s.eng.dPhaseAcc x) (cck55End s.params s.eng.dPhaseAcc x) 2)

/-- The 11 Mbps mapper by the lane table (R190, R191, R107, R151, R230). The field positions, the reading
of the parity before the increment and the chip order are the spec's decisions D8, D10 and D4 (log 22). -/
def Obligations.Cck11MapsOneSymbol : Prop :=
  ∀ (s : State) (c : Call) (x : Byte),
    s.call = some c → headItem s c = some ⟨x, none⟩ →
    (segment s.params s.eng = .payload ∧ (s.eng.rate = 3 ∨ s.eng.rate = 6)) →
    8 ≤ c.cap - c.produced →
    exec (.mapCck11 x) s =
      .next (byteMapped s c (cck11Chips s.params (s.eng.dPsduSymbolCount % 2 == 1) s.eng.dPhaseAcc x) (cck11End s.params (s.eng.dPsduSymbolCount % 2 == 1) s.eng.dPhaseAcc x) 1)

/-- The payload symbol counter does not wrap (R38, R232) and keeps its width (R8, R32); the free value past
it is the model's (log 15). -/
def Obligations.SymbolCounterAddsInWidth : Prop :=
  ∀ (prm : Params) (count n : Nat), prm.symW = prm.cntW + 3 ∧
    (count + n < 2 ^ prm.symW → addSymbols prm count n = count + n) ∧
    addSymbols prm count n < 2 ^ prm.symW

/-- Step TRAILER (R240). With fewer than 11 free slots TRAILER lets the call return: this is the model's
reading of R263 (log 9). -/
def Obligations.TrailerIsWholeOrWaits : Prop :=
  (∀ (prm : Params) (S : Engine), segment prm S = .trailer ↔
    S.fault = false ∧ S.dCopy = S.dCount ∧ S.dAppend = 0) ∧
  ∀ (s : State) (c : Call), s.call = some c → segment s.params s.eng = .trailer →
    (11 ≤ c.cap - c.produced →
      exec .trailer s = .next
        { s with
          eng := { s.eng with dAppend := 11 }
          call := some
            { c with
              produced := c.produced + 11
              events := c.events ++
                [.chip 0, .chip 2, .chip 0, .chip 0, .chip 2, .chip 0, .chip 0, .chip 0, .chip 2,
                  .chip 2, .chip 2] } } ∧
      segment s.params { s.eng with dAppend := 11 } = .idle) ∧
    (c.cap - c.produced < 11 →
      exec .trailer s = .next (returnCall s) ∧ (returnCall s).eng = s.eng ∧
        (returnCall s).output = s.output ++ c.events)

/-- Step DISCARD (R245), the spec's decision D15 (log 22). -/
def Obligations.IdleByteIsDiscarded : Prop :=
  ∀ (s : State) (c : Call) (x : Byte), s.call = some c → headItem s c = some ⟨x, none⟩ →
    segment s.params s.eng = .idle →
    exec (.discard x) s = .next { s with call := some { c with consumed := c.consumed + 1 } } ∧
    step s = exec (.discard x) s

/-- Step FAULT(c) (R304 to R307), the spec's decision D21 (log 22). Which registers make BADRATE and
BADSTATE is said in SegmentFollowsRegisters. -/
def Obligations.FatalFaultIsTaken : Prop :=
  ∀ (s : State) (c : Call), s.call = some c →
    (segment s.params s.eng = .badRate →
      exec (.fault .badRateState) s = .next
        { s with
          eng := { s.eng with fault := true }
          call := some { c with events := c.events ++ [.fatalEv 2] } } ∧
      step s = exec (.fault .badRateState) s) ∧
    (segment s.params s.eng = .badState →
      exec (.fault .badInvariant) s = .next
        { s with
          eng := { s.eng with fault := true }
          call := some { c with events := c.events ++ [.fatalEv 3] } } ∧
      step s = exec (.fault .badInvariant) s) ∧
    segment s.params { s.eng with fault := true } = .faulted

/-- No return from a fault (R308, R268), the spec's decision D21 (log 22). -/
def Obligations.FaultedCallReturnsNothing : Prop :=
  ∀ (s : State) (n cap : Nat), s.call = none → s.eng.fault = true →
    exec (.process n cap) s = .next { s with replies := s.replies ++ [.returned 0 0 []] }

/-- "Only RESET clears fault" (R40, R308), the spec's decision D21 (log 22). -/
def Obligations.OnlyResetClearsFault : Prop :=
  ∀ (i : Instr) (s t : State), s.eng.fault = true → i ≠ .reset → exec i s = .next t →
    t.eng.fault = true

/-- PROCESS completes and its result is bounded (R134, R260, R265, R266). -/
def Obligations.ProcessCompletesAndAnswers : Prop :=
  ∀ (s : State) (n cap : Nat), s.call = none →
    (∀ item ∈ s.input.take n, ∀ len, item.tag = some len → 1 ≤ len ∧ len ≤ 2 ^ s.params.cntW) →
    ∃ (t : State) (k p : Nat) (evs : List Event),
      exec (.process n cap) s = .next t ∧ k ≤ n ∧ k ≤ s.input.length ∧ p ≤ cap ∧
      chipCount evs = p ∧
      t = { s with
        eng := t.eng
        input := s.input.drop k
        rp := s.rp + k
        wp := s.wp + p
        output := s.output ++ evs
        replies := s.replies ++ [.returned k p evs] }

/-- A call is a sequence of micro-steps, and every call ends (R261, R265). That a call is one step of the
machine, and that a window is cut to the bytes held, are the model's choices (log 6, log 7). -/
def Obligations.ProcessIsItsMicroSteps : Prop :=
  ∀ (s : State) (n cap : Nat), s.call = none →
    ∃ m, m ≤ 2 * min n s.input.length + 3 ∧
      Host.Core.run Sys2Proof.core m (openCall n cap s) = exec (.process n cap) s

/-- The forecast (R280, R80), its formula in every segment by the spec's decision D25 (log 22). That
FORECAST answers while a call is running too is the model's choice (log 10); at rate 7 the answer is a
free value (log 14). -/
def Obligations.ForecastFloorDivides : Prop :=
  ∀ (s : State) (n : Nat), ∃ b : Nat,
    exec (.forecast n) s = .next { s with replies := s.replies ++ [.forecast b] } ∧
    (s.eng.rate ≠ 7 →
      let window := (longPreamble s.eng.rate = true ∧ s.eng.dCopy < s.params.long1MBytes) ∨
        (shortPreamble s.eng.rate = true ∧ s.eng.dCopy < 15)
      (window → b = n / 88) ∧
      (¬ window →
        (s.eng.rate = 0 → b = n / 88) ∧
        (s.eng.rate = 1 ∨ s.eng.rate = 4 → b = n / 44) ∧
        (s.eng.rate = 2 ∨ s.eng.rate = 5 → b = n / 16) ∧
        (s.eng.rate = 3 ∨ s.eng.rate = 6 → b = n / 8)))

/-- What the forecast guarantees, and what it does not (R281). -/
def Obligations.ForecastNeverOverstates : Prop :=
  (∀ (prm : Params) (S : Engine) (n : Nat), S.rate ≠ 7 →
    forecastBytes prm S n * forecastRatio prm S ≤ n ∧
    n < (forecastBytes prm S n + 1) * forecastRatio prm S) ∧
  (∀ (prm : Params) (S : Engine), segment prm S = .preamble →
    forecastBytes prm S 100 = 1 ∧ forecastBytes prm S 100 * 88 < 100)

/-- RESET and its values (R340 to R342), the spec's decision D12 (log 22). -/
def Obligations.ResetLeavesIdle : Prop :=
  ∀ (s : State), s.call = none →
    exec .reset s = .next { s with eng := ⟨0, 0, 0, 0, 0, 11, false⟩ } ∧
    segment s.params ⟨0, 0, 0, 0, 0, 11, false⟩ = .idle ∧
    ∀ n, forecastBytes s.params ⟨0, 0, 0, 0, 0, 11, false⟩ n = n / 88

/-- The host contract's (b) and (c) (R292, 93 I10). -/
def Obligations.OverlapIsRefused : Prop :=
  ∀ (s : State) (c : Call), s.call = some c →
    (∀ n cap, exec (.process n cap) s = .refused .overlappingCall) ∧
    exec .reset s = .refused .resetDuringCall

/-- The segment function over the registers (R50; R304, R305 and R309 item 2 for the fault segments). The
fault segments and their order are the spec's decisions D19 and D21 (log 22). -/
def Obligations.SegmentFollowsRegisters : Prop :=
  ∀ (prm : Params) (S : Engine),
    (segment prm S = .faulted ↔ S.fault = true) ∧
    (segment prm S = .badState ↔
      S.fault = false ∧ (S.dCount < S.dCopy ∨ (S.dAppend ≠ 0 ∧ S.dAppend ≠ 11))) ∧
    (segment prm S = .badRate ↔
      S.fault = false ∧ S.dCopy < S.dCount ∧ (S.dAppend = 0 ∨ S.dAppend = 11) ∧ S.rate = 7) ∧
    (segment prm S = .preamble ↔
      S.fault = false ∧ S.dCopy < S.dCount ∧ (S.dAppend = 0 ∨ S.dAppend = 11) ∧
        ((S.rate ≤ 3 ∧ S.dCopy < prm.long1MBytes) ∨ (4 ≤ S.rate ∧ S.rate ≤ 6 ∧ S.dCopy < 9))) ∧
    (segment prm S = .header ↔
      S.fault = false ∧ S.dCopy < S.dCount ∧ (S.dAppend = 0 ∨ S.dAppend = 11) ∧
        4 ≤ S.rate ∧ S.rate ≤ 6 ∧ 9 ≤ S.dCopy ∧ S.dCopy < 15) ∧
    (segment prm S = .payload ↔
      S.fault = false ∧ S.dCopy < S.dCount ∧ (S.dAppend = 0 ∨ S.dAppend = 11) ∧
        ((S.rate ≤ 3 ∧ prm.long1MBytes ≤ S.dCopy) ∨
          (4 ≤ S.rate ∧ S.rate ≤ 6 ∧ 15 ≤ S.dCopy))) ∧
    (segment prm S = .trailer ↔ S.fault = false ∧ S.dCopy = S.dCount ∧ S.dAppend = 0) ∧
    (segment prm S = .idle ↔ S.fault = false ∧ S.dCopy = S.dCount ∧ S.dAppend = 11)

/-- Step selection (R262, R263, R309), with the spec's decisions D14, D19 and D21 (log 22). -/
def Obligations.SelectionFollowsPriority : Prop :=
  ∀ (prm : Params) (S : Engine) (head : Option InItem) (free : Nat),
    (segment prm S = .faulted → select prm S head free = none) ∧
    (segment prm S = .badRate → select prm S head free = some (.fault .badRateState)) ∧
    (segment prm S = .badState → select prm S head free = some (.fault .badInvariant)) ∧
    (S.fault = true → select prm S head free = none) ∧
    (S.fault = false → (S.dCount < S.dCopy ∨ (S.dAppend ≠ 0 ∧ S.dAppend ≠ 11)) →
      select prm S head free = some (.fault .badInvariant)) ∧
    (S.fault = false → S.dCopy < S.dCount → (S.dAppend = 0 ∨ S.dAppend = 11) → S.rate = 7 →
      select prm S head free = some (.fault .badRateState)) ∧
    (segment prm S = .trailer →
      select prm S head free = if 11 ≤ free then some .trailer else none) ∧
    (readsAnnotated (segment prm S) = true →
      (head = none → select prm S head free = none) ∧
      (∀ x len, head = some ⟨x, some len⟩ →
        select prm S head free = some
          (if 1 ≤ len ∧ len ≤ 2 ^ prm.cntW then decodeSelector x len else .refuse x len)) ∧
      (∀ x, head = some ⟨x, none⟩ →
        (segment prm S = .idle → select prm S head free = some (.discard x)) ∧
        (segment prm S ≠ .idle → ∃ m, mapper prm S = some m ∧
          select prm S head free =
            if mapperChips m ≤ free then some (mapInstr m x) else none)))

/-- R51, R52 and R197 agree. -/
def Obligations.MapperFitsItsSegment : Prop :=
  ∀ (prm : Params) (S : Engine),
    ((mapper prm S).isSome = true ↔
      segment prm S = .preamble ∨ segment prm S = .header ∨ segment prm S = .payload) ∧
    size prm S = (mapper prm S).map mapperChips

/-- Which bytes the Barker mappers take (R171, R181). -/
def Obligations.BarkerMapperSegments : Prop :=
  ∀ (prm : Params) (S : Engine),
    (segment prm S = .preamble → mapper prm S = some .dbpsk ∧ size prm S = some 88) ∧
    (segment prm S = .payload → S.rate = 0 → mapper prm S = some .dbpsk) ∧
    (segment prm S = .header →
      shortPreamble S.rate = true ∧ mapper prm S = some .dqpsk ∧ size prm S = some 44) ∧
    (segment prm S = .payload → S.rate = 1 ∨ S.rate = 4 → mapper prm S = some .dqpsk) ∧
    (∀ r : Rate, (longPreamble r = true → preambleBytes prm r = prm.long1MBytes) ∧
      (shortPreamble r = true → preambleBytes prm r = 9))

/-- Insufficient output capacity (R302). -/
def Obligations.CapacityShortageOnlyReturns : Prop :=
  ∀ (s : State) (c : Call) (i : Instr), s.call = some c → candidateIn s c = some i →
    c.cap - c.produced < slotsNeeded s.params s.eng i →
    step s = .next (returnCall s) ∧ (returnCall s).eng = s.eng ∧
    (returnCall s).output = s.output ++ c.events ∧
    (returnCall s).replies = s.replies ++ [.returned c.consumed c.produced c.events]

/-- Insufficient input (R303). -/
def Obligations.InputShortageOnlyReturns : Prop :=
  ∀ (s : State) (c : Call), s.call = some c → headItem s c = none →
    readsAnnotated (segment s.params s.eng) = true →
    step s = .next (returnCall s) ∧ (returnCall s).eng = s.eng ∧
    (returnCall s).output = s.output ++ c.events ∧
    (returnCall s).replies = s.replies ++ [.returned c.consumed c.produced c.events]

/-- The progress guarantee (R351); REFUSE is the one exception, since it has no meaning (R214, R262). -/
def Obligations.AmpleCapacityMakesProgress : Prop :=
  ∀ (s : State) (c : Call), s.call = some c →
    (segment s.params s.eng = .trailer → 88 ≤ c.cap - c.produced →
      selectIn s c = some .trailer ∧
      ∃ t c', step s = .next t ∧ t.call = some c' ∧
        c'.consumed = c.consumed ∧ c'.produced = c.produced + 11) ∧
    (((segment s.params s.eng = .preamble ∨ segment s.params s.eng = .header ∨
          segment s.params s.eng = .payload) ∧ 88 ≤ c.cap - c.produced) ∨
        segment s.params s.eng = .idle →
      (headItem s c).isSome = true →
      (∃ i t c', selectIn s c = some i ∧ bytesTaken i = 1 ∧ step s = .next t ∧
        t.call = some c' ∧ c'.consumed = c.consumed + 1 ∧
        c'.produced = c.produced + groupChips i) ∨
      (∃ sel len, headItem s c = some ⟨sel, some len⟩ ∧ (len = 0 ∨ 2 ^ s.params.cntW < len) ∧
        selectIn s c = some (.refuse sel len)))

/-- R216 and R355, the spec's decision D19 (log 22). -/
def Obligations.OwedTrailerGoesFirst : Prop :=
  ∀ (s : State) (c : Call), s.call = some c → segment s.params s.eng = .trailer →
    (c.cap - c.produced < 11 → step s = .next (returnCall s)) ∧
    (11 ≤ c.cap - c.produced → step s = exec .trailer s)

/-- The chips of each step are fixed, and no partial group is written (R9, R263, R267), and
a step takes at most its one byte (R72, R79, R261). That a MAP or TRAILER without room lets the call
return, and that the output stream changes only at a return, are the model's readings of R263 and R84
(log 9, log 18). -/
def Obligations.EachStepWritesWholeGroups : Prop :=
  ∀ (i : Instr) (s t : State), isHostOp i = false → exec i s = .next t →
    ∃ c, s.call = some c ∧
      ((t = returnCall s ∧ c.cap - c.produced < groupChips i) ∨
        ∃ c' evs, groupChips i ≤ c.cap - c.produced ∧ t.call = some c' ∧
          c'.window = c.window ∧ c'.cap = c.cap ∧
          c'.events = c.events ++ evs ∧ chipCount evs = groupChips i ∧
          c'.produced = c.produced + groupChips i ∧ c'.consumed = c.consumed + bytesTaken i ∧
          t.input = s.input ∧ t.rp = s.rp ∧ t.wp = s.wp ∧ t.output = s.output ∧
          t.replies = s.replies)

/-- Who writes `d_copy`, and what it decides (R35, R50). That a MAP whose group does not fit lets the call
return with `d_copy` unchanged is the model's reading of R263 (log 9). -/
def Obligations.CopyCounterWriters : Prop :=
  (∀ (i : Instr) (s t : State), isHostOp i = false → exec i s = .next t →
    (isStart i = true → t.eng.dCopy = 0) ∧
    (isMap i = true → ∃ c, s.call = some c ∧
      ((groupChips i ≤ c.cap - c.produced ∧ t.eng.dCopy = s.eng.dCopy + 1 ∧ t.call ≠ none) ∨
        (c.cap - c.produced < groupChips i ∧ t = returnCall s))) ∧
    (isStart i = false → isMap i = false → t.eng.dCopy = s.eng.dCopy) ∧
    (t = returnCall s → t.eng.dCopy = s.eng.dCopy)) ∧
  (∀ (prm : Params) (S : Engine), (mapper prm S).isSome = true →
    segment prm S =
      if S.dCopy < preambleBytes prm S.rate then .preamble
      else if shortPreamble S.rate = true ∧ S.dCopy < 15 then .header
      else .payload)

/-- Who writes `d_count` (R36). -/
def Obligations.LengthCounterWriters : Prop :=
  ∀ (i : Instr) (s t : State), isHostOp i = false → exec i s = .next t →
    (isStart i = true → ∃ x len, encode i = some ⟨x, some len⟩ ∧
      (x.toNat ≤ 6 → t.eng.dCount = len - 1) ∧ (7 ≤ x.toNat → t.eng.dCount = 0)) ∧
    (isStart i = false → t.eng.dCount = s.eng.dCount)

/-- The frame of S: who writes what (R33, R37 to R40, R42). -/
def Obligations.OtherFieldsHaveTheirWriters : Prop :=
  (∀ (i : Instr) (s t : State), isHostOp i = false → exec i s = .next t →
    (isStart i = false → t.eng.rate = s.eng.rate) ∧
    (isStart i = false → isMap i = false →
      t.eng.dPhaseAcc = s.eng.dPhaseAcc ∧ t.eng.dPsduSymbolCount = s.eng.dPsduSymbolCount) ∧
    (isStart i = false → i ≠ .trailer → t.eng.dAppend = s.eng.dAppend) ∧
    ((∀ cause, i ≠ .fault cause) → t.eng.fault = s.eng.fault)) ∧
  (∀ (i : Instr) (s t : State), exec i s = .next t → t.params = s.params ∧ t.ops = s.ops)

/-- Barker spreading on complex values (R120, R145). The chip code and the chip order are the spec's
decisions D3 and D4 (log 16, log 22). -/
def Obligations.SpreadTimesBarker : Prop :=
  (chipIQ 0 = (1, 0) ∧ chipIQ 1 = (0, 1) ∧ chipIQ 2 = (-1, 0) ∧ chipIQ 3 = (0, -1)) ∧
  ∀ k : Quadrant, (spread k).map chipIQ =
    ([1, -1, 1, 1, -1, 1, 1, 1, -1, -1, -1] : List Int).map
      fun b => (b * (chipIQ k).1, b * (chipIQ k).2)

/-- The CCK symbol generator against the lane table (R150, R151). The chip order is the spec's decision
D4 (log 22). -/
def Obligations.CckSymbolFollowsLanes : Prop :=
  ∀ p1 p2 p3 p4 : Quadrant,
    cckSymbol p1 p2 p3 p4 = cckByLanes p1 p2 p3 p4 ∧
    (cckSymbol p1 p2 p3 p4).getLast? = some p1

/-- The phase utility (R140, with 90 C3), for rational multiples of π: the model's choice of number type
is log 17. -/
def Obligations.WrapStaysOpenInterval : Prop :=
  (∀ theta : Rat,
    -2 < wrap theta ∧ wrap theta < 2 ∧
    (∃ m : Int, wrap theta = theta - 2 * m) ∧
    (-2 < theta → theta < 2 → wrap theta = theta)) ∧
  wrap 2 = 0 ∧ wrap (-2) = 0

/-- Quadrant equivalence (R142, R143). -/
def Obligations.QuadrantAddIsWrappedSum : Prop :=
  ∀ a b : Quadrant, wrap (phaseOf a + phaseOf b) = phaseOf (qadd a b)

/-- The expected chip count (R220); the threshold is the parameter LONG_1M_BYTES (D11, log 2)
and the width follows the parameter CNT_W (D13, log 1). -/
def Obligations.ExpectedLengthFormula : Prop :=
  ∀ (prm : Params) (n : Nat), n < 2 ^ prm.cntW →
    prm.expW = prm.cntW + 7 ∧
    (∀ (r : Rate) (cpb : Nat), (r, cpb) ∈ [((0 : Rate), 88), (1, 44), (2, 16), (3, 8)] →
      expectedChips prm r n =
        88 * min n prm.long1MBytes + cpb * (n - prm.long1MBytes) + 11) ∧
    (∀ (r : Rate) (cpb : Nat), (r, cpb) ∈ [((4 : Rate), 44), (5, 16), (6, 8)] →
      expectedChips prm r n = 88 * min n 9 + 44 * min (n - 9) 6 + cpb * (n - 15) + 11) ∧
    (∀ r : Rate, r ≠ 7 → expectedChips prm r n < 2 ^ prm.expW ∧ expectedChips prm r 0 = 11)

/-- Where a Tag attaches (R74, R131, R221), the spec's decision D26 (log 22). That positions count from the
machine's reset state on and go on across a RESET is the model's reading of R71 and R342 (log 12). -/
def Obligations.TagSitsAtFirstChip : Prop :=
  ∀ (i : Instr) (s t : State) (c : Call) (x : Byte) (len : Nat),
    Inv s → s.call = some c → isStart i = true → encode i = some ⟨x, some len⟩ → x.toNat ≤ 6 →
    exec i s = .next t →
    ∃ c', t.call = some c' ∧ c'.produced = c.produced ∧
      tagPositions s.wp c'.events = tagPositions s.wp c.events ++
        [(s.wp + c.produced,
          expectedChips s.params (BitVec.ofNat 3 x.toNat) (len - 1))]

/-- The invariant holds at reset (R53, R290). The empty streams are the model's choice (log 4). -/
def Obligations.ResetMeetsInvariant : Prop :=
  defaultParams.wellFormed = true ∧ Inv State.reset ∧ ∀ prm : Params, Inv (State.resetWith prm) ∧
    segment prm (State.resetWith prm).eng = .idle

/-- The reachable-state invariant is kept by every step (R45, R46, R290, with R8, R32, R71, R73
and R266). -/
def Obligations.StepKeepsInvariant : Prop :=
  (∀ s t : State, Inv s → step s = .next t → Inv t) ∧
  (∀ (prm : Params) (S : Engine), EngineInv S →
    segment prm S ≠ .faulted ∧ segment prm S ≠ .badRate ∧ segment prm S ≠ .badState)

/-- The widths of R32, with R8's SYM_W, are kept by every step; no counter wraps (R31, R38, D13). That
counters are numbers with this bound is the model's choice (log 1); the free value past SYM_W has SYM_W
bits (log 15). -/
def Obligations.StepKeepsRegisterWidths : Prop :=
  ∀ s t : State, registersFit s.params s.eng → step s = .next t → registersFit t.params t.eng

/-- The source's exact chip count (R222; W7 of 95_test_vectors.md). -/
def Obligations.PacketProducesItsTag : Prop :=
  ∀ (s : State) (sel : Byte) (data : List Byte) (rest : List InItem) (cap : Nat),
    s.call = none → segment s.params s.eng = .idle → sel.toNat ≤ 6 → data.length < 2 ^ s.params.cntW →
    s.input = packetItems sel data ++ rest →
    expectedChips s.params (BitVec.ofNat 3 sel.toNat) data.length ≤ cap →
    ∃ (t : State) (qs : List Quadrant),
      exec (.process (data.length + 1) cap) s = .next t ∧
      qs.length = expectedChips s.params (BitVec.ofNat 3 sel.toNat) data.length ∧
      t.replies = s.replies ++ [.returned (data.length + 1) qs.length
        (.tag qs.length :: qs.map .chip)] ∧
      t.input = rest ∧ t.call = none ∧ packetComplete t ∧ t.eng.dCopy = t.eng.dCount

/-- Accumulated phase equals the wrapped sum (R198, R195), for a whole packet in one call;
partial packets and split calls are in AccumulatorIsSplitIndependent. With the spec's layouts D5 to D10 (log 22). -/
def Obligations.AccumulatorIsWrappedSum : Prop :=
  ∀ (s : State) (sel : Byte) (data : List Byte) (rest : List InItem) (cap : Nat),
    s.call = none → segment s.params s.eng = .idle → sel.toNat ≤ 6 → data.length < 2 ^ s.params.cntW →
    s.input = packetItems sel data ++ rest →
    expectedChips s.params (BitVec.ofNat 3 sel.toNat) data.length ≤ cap →
    ∃ t, exec (.process (data.length + 1) cap) s = .next t ∧
      t.eng.dPhaseAcc = packetTurns s.params (BitVec.ofNat 3 sel.toNat) data

/-- Accumulated phase equals the wrapped sum at every point of a packet and for every splitting into calls
(R198, R195, R35, R291), with the spec's layouts D5 to D10 and D20 (log 22). -/
def Obligations.AccumulatorIsSplitIndependent : Prop :=
  ∀ (s t : State) (sel : Byte) (len k : Nat) (data : List Byte) (rest : List InItem)
    (calls : List (Nat × Nat)),
    s.call = none → segment s.params s.eng = .idle → sel.toNat ≤ 6 →
    data.length < len → len ≤ 2 ^ s.params.cntW →
    s.input = ⟨sel, some len⟩ :: (data.map fun x => ⟨x, none⟩) ++ rest →
    runCalls calls s = .next t → k ≤ data.length → t.rp = s.rp + 1 + k →
    t.eng.dCopy = k ∧
    t.eng.dPhaseAcc = packetTurns s.params (BitVec.ofNat 3 sel.toNat) (data.take k)

/-- Chunking invariance, the part that holds of every splitting (R88, R291). -/
def Obligations.ChunkedCallsAreAnInitialPart : Prop :=
  ∀ (s t u : State) (calls : List (Nat × Nat)), s.call = none →
    runCalls calls s = .next t →
    exec (.process s.input.length (ampleCap s)) s = .next u →
    ∃ more, u.output = t.output ++ more

/-- Chunking invariance, the part for a finished stream (R88, R291; W4 of 95_test_vectors.md). -/
def Obligations.ChunkedCallsAgreeWhenDone : Prop :=
  ∀ (s t : State) (calls : List (Nat × Nat)), s.call = none → calls ≠ [] →
    runCalls calls s = .next t → t.input = [] → segment t.params t.eng ≠ .trailer →
    ∃ u, exec (.process s.input.length (ampleCap s)) s = .next u ∧
      u.output = t.output ∧ u.eng = t.eng ∧ u.input = [] ∧ u.rp = t.rp ∧ u.wp = t.wp

/-- A malformed selector contributes no chips and the engine resumes at the next annotated byte (R213,
R245, R251, R301), with MALFORMED_TRAILER at its default (D17, log 2). -/
def Obligations.MalformedPacketIsDropped : Prop :=
  ∀ (s : State) (sel : Byte) (len : Nat) (data : List Byte) (rest : List InItem) (cap : Nat),
    s.call = none → segment s.params s.eng = .idle → s.params.malformedTrailer = false →
    7 ≤ sel.toNat → 1 ≤ len → len ≤ 2 ^ s.params.cntW →
    s.input = ⟨sel, some len⟩ :: (data.map fun x => ⟨x, none⟩) ++ rest →
    ∃ t, exec (.process (data.length + 1) cap) s = .next t ∧
      t.replies = s.replies ++ [.returned (data.length + 1) 0 [.rejectEv sel 1]] ∧
      t.input = rest ∧ packetComplete t ∧ t.eng.rate = 0
end

