-- ==== Sys2Proof/Tests/Slice0.lean ====
section
/-! SUPPORT. Tests of the model against the worked examples and vectors of spec/95_test_vectors.md, and
the witnesses that the obligations' hypotheses can be met. Expected values come from the spec. -/

namespace Sys2Proof.Tests

open Sys2Proof.Machine

/-! ## Helpers -/

/-- An engine state in the notation of 95: (rate, d_copy, d_count, acc, sym, app, fault). -/
def eng (rate : Rate) (copy count : Nat) (acc : Quadrant) (sym : Nat) (app : BitVec 4)
    (fault : Bool) : Engine :=
  ⟨rate, copy, count, acc, sym, app, fault⟩

/-- A state whose call presents all of `input` with `cap` slots. -/
def inCall (S : Engine) (input : List InItem) (cap : Nat) : State :=
  openCall input.length cap { State.reset with eng := S, input := input }

/-- An input byte without annotation. -/
def byte (x : Byte) : InItem := ⟨x, none⟩

/-- An input byte carrying annotation `len`. -/
def tagged (x : Byte) (len : Nat) : InItem := ⟨x, some len⟩

/-- `S` after an outcome, if there is a next state. -/
def engOf : Host.Outcome State Fault Refusal → Option Engine
  | .next s => some s.eng
  | .fault _ => none
  | .refused _ => none

/-- The running call after an outcome. -/
def callOf : Host.Outcome State Fault Refusal → Option Call
  | .next s => s.call
  | .fault _ => none
  | .refused _ => none

/-- The answers after an outcome. -/
def repliesOf : Host.Outcome State Fault Refusal → List Reply
  | .next s => s.replies
  | .fault _ => []
  | .refused _ => []

/-- The refusal of an outcome. -/
def refusalOf : Host.Outcome State Fault Refusal → Option Refusal
  | .next _ => none
  | .fault _ => none
  | .refused r => some r

/-- Chips as events. -/
def chips (qs : List Quadrant) : List Event := qs.map .chip

/-- `S0` of 95 2.3. -/
def s0 : List Quadrant := [0, 2, 0, 0, 2, 0, 0, 0, 2, 2, 2]

/-- `S1` of 95 2.3. -/
def s1 : List Quadrant := [1, 3, 1, 1, 3, 1, 1, 1, 3, 3, 3]

/-- `S2` of 95 2.3. -/
def s2 : List Quadrant := [2, 0, 2, 2, 0, 2, 2, 2, 0, 0, 0]

/-- `S3` of 95 2.3. -/
def s3 : List Quadrant := [3, 1, 3, 3, 1, 3, 3, 3, 1, 1, 1]

/-! ## WellFormed: each check refuses an ill-formed term (R102, R214) -/

theorem test_wf_start1MLong_zero : (Instr.start1MLong 0).wellFormed 32 = false := by decide
theorem test_wf_start2MLong_zero : (Instr.start2MLong 0).wellFormed 32 = false := by decide
theorem test_wf_start55MLong_zero : (Instr.start55MLong 0).wellFormed 32 = false := by decide
theorem test_wf_start11MLong_zero : (Instr.start11MLong 0).wellFormed 32 = false := by decide
theorem test_wf_start2MShort_zero : (Instr.start2MShort 0).wellFormed 32 = false := by decide
theorem test_wf_start55MShort_zero : (Instr.start55MShort 0).wellFormed 32 = false := by decide
theorem test_wf_start11MShort_zero : (Instr.start11MShort 0).wellFormed 32 = false := by decide
theorem test_wf_startMalformed07_zero : (Instr.startMalformed07 0).wellFormed 32 = false := by decide
theorem test_wf_startMalformed08_long : (Instr.startMalformed08 0 (2 ^ 32 + 1)).wellFormed 32 = false := by decide
theorem test_wf_startMalformed10_long : (Instr.startMalformed10 0 (2 ^ 32 + 1)).wellFormed 32 = false := by decide
theorem test_wf_startMalformed20_long : (Instr.startMalformed20 0 (2 ^ 32 + 1)).wellFormed 32 = false := by decide
theorem test_wf_startMalformed40_long : (Instr.startMalformed40 0 (2 ^ 32 + 1)).wellFormed 32 = false := by decide
theorem test_wf_startMalformed80_long : (Instr.startMalformed80 0 (2 ^ 32 + 1)).wellFormed 32 = false := by decide
theorem test_wf_refuse_admissible : (Instr.refuse 3 5).wellFormed 32 = false := by decide
theorem test_wf_start_bounds :
    (Instr.start1MLong 1).wellFormed 32 = true ∧ (Instr.start1MLong (2 ^ 32)).wellFormed 32 = true := by
  decide

theorem test_wf_width_5 :
    (Instr.start1MLong 32).wellFormed 5 = true ∧ (Instr.start1MLong 33).wellFormed 5 = false := by
  decide
theorem test_wf_params : defaultParams.wellFormed = true := by decide
theorem test_wf_params_width : { defaultParams with cntW := 4 }.wellFormed = false := by decide
theorem test_wf_params_long : { defaultParams with long1MBytes := 19 }.wellFormed = false := by
  decide

/-! ## Decoding of words written out from the encoding tables (R100, R103 to R108) -/

theorem test_decode_start1MLong : decode 32 .idle 0 ⟨0b00000000, some 7⟩ = .ok (.start1MLong 7) := by decide
theorem test_decode_start2MLong : decode 32 .idle 0 ⟨0b00000001, some 7⟩ = .ok (.start2MLong 7) := by decide
theorem test_decode_start55MLong : decode 32 .preamble 0 ⟨0b00000010, some 7⟩ = .ok (.start55MLong 7) := by decide
theorem test_decode_start11MLong : decode 32 .header 4 ⟨0b00000011, some 7⟩ = .ok (.start11MLong 7) := by decide
theorem test_decode_start2MShort : decode 32 .payload 3 ⟨0b00000100, some 7⟩ = .ok (.start2MShort 7) := by decide
theorem test_decode_start55MShort : decode 32 .idle 0 ⟨0b00000101, some 7⟩ = .ok (.start55MShort 7) := by decide
theorem test_decode_start11MShort : decode 32 .idle 0 ⟨0b00000110, some 7⟩ = .ok (.start11MShort 7) := by decide
theorem test_decode_startMalformed07 : decode 32 .idle 0 ⟨0b00000111, some 7⟩ = .ok (.startMalformed07 7) := by decide
theorem test_decode_startMalformed08 : decode 32 .idle 0 ⟨0b00001101, some 7⟩ = .ok (.startMalformed08 0b101 7) := by decide
theorem test_decode_startMalformed10 : decode 32 .idle 0 ⟨0b00010110, some 7⟩ = .ok (.startMalformed10 0b0110 7) := by decide
theorem test_decode_startMalformed20 : decode 32 .idle 0 ⟨0b00110010, some 7⟩ = .ok (.startMalformed20 0b10010 7) := by decide
theorem test_decode_startMalformed40 : decode 32 .idle 0 ⟨0b01100011, some 7⟩ = .ok (.startMalformed40 0b100011 7) := by decide
theorem test_decode_startMalformed80 : decode 32 .idle 0 ⟨0b11000101, some 7⟩ = .ok (.startMalformed80 0b1000101 7) := by decide
theorem test_decode_mapDbpsk : decode 32 .preamble 6 ⟨0b00000001, none⟩ = .ok (.mapDbpsk 0x01) := by decide
theorem test_decode_mapDqpsk : decode 32 .header 5 ⟨0b00011011, none⟩ = .ok (.mapDqpsk 0x1B) := by decide
theorem test_decode_mapCck55 : decode 32 .payload 5 ⟨0b10100101, none⟩ = .ok (.mapCck55 0xA5) := by decide
theorem test_decode_mapCck11 : decode 32 .payload 3 ⟨0b11100100, none⟩ = .ok (.mapCck11 0xE4) := by decide
theorem test_decode_discard : decode 32 .idle 0 ⟨0b01010101, none⟩ = .ok (.discard 0x55) := by decide
theorem test_decode_refuse_width :
    decode 5 .idle 0 ⟨0b00000011, some 32⟩ = .ok (.start11MLong 32) ∧
    decode 5 .idle 0 ⟨0b00000011, some 33⟩ = .ok (.refuse 0x03 33) := by decide
theorem test_decode_refuse : decode 32 .idle 0 ⟨0b00000011, some 0⟩ = .ok (.refuse 0x03 0) := by decide
theorem test_decode_trailer_first : decode 32 .trailer 0 ⟨0x00, some 5⟩ = .error .trailerFirst := by decide
theorem test_decode_faulted : decode 32 .faulted 0 ⟨0x00, none⟩ = .error .noDecode := by decide
theorem test_decode_reserved_rate : decode 32 .payload 7 ⟨0x00, none⟩ = .error .noSuchContext := by decide
theorem test_table_word : decodeTableWord 8 0x3F = some (.startMalformed20 0x1F 1) := by decide

/-! ## Leaf operations (95 2.1 to 2.4) -/

theorem test_spread : spread 0 = s0 ∧ spread 1 = s1 ∧ spread 2 = s2 ∧ spread 3 = s3 := by decide
theorem test_cckSymbol_1230 : cckSymbol 1 2 3 0 = [2, 0, 3, 3, 2, 0, 1, 1] := by decide
theorem test_cckSymbol_3333 : cckSymbol 3 3 3 3 = [0, 1, 1, 0, 1, 2, 0, 3] := by decide
theorem test_qadd : qadd 3 2 = 1 := by decide
theorem test_wrap : wrap 5 = 1 ∧ wrap 2 = 0 ∧ wrap (-2) = 0 ∧ wrap (-3) = -1 := by
  norm_num [wrap, wrapDown, wrapUp]
theorem test_wrap_below : wrap (3 / 2) = 3 / 2 := by norm_num [wrap, wrapDown, wrapUp]

/-! ## Segment, expected length, forecast (95 2.9, 2.10, 2.15) -/

theorem test_segment :
    segment defaultParams (eng 0 0 0 0 0 11 false) = .idle ∧
    segment defaultParams (eng 0 0 0 0 0 0 false) = .trailer ∧
    segment defaultParams (eng 0 17 20 0 0 0 false) = .preamble ∧
    segment defaultParams (eng 0 18 20 0 0 0 false) = .payload ∧
    segment defaultParams (eng 4 9 20 0 0 0 false) = .header ∧
    segment defaultParams (eng 4 15 20 0 0 0 false) = .payload ∧
    segment defaultParams (eng 7 0 5 0 0 0 false) = .badRate ∧
    segment defaultParams (eng 7 5 5 0 0 11 false) = .idle ∧
    segment defaultParams (eng 1 2 5 0 0 5 false) = .badState ∧
    segment defaultParams (eng 7 6 5 0 0 0 false) = .badState ∧
    segment defaultParams (eng 2 0 5 0 0 0 true) = .faulted := by
  decide
theorem test_segment_long24 :
    segment { defaultParams with long1MBytes := 24 } (eng 0 18 20 0 0 0 false) = .preamble := by decide
theorem test_expectedChips :
    expectedChips defaultParams 0 20 = 1771 ∧ expectedChips defaultParams 4 16 = 1111 ∧
    expectedChips defaultParams 3 24 = 1643 ∧ expectedChips defaultParams 6 10 = 847 := by decide
theorem test_forecast :
    forecastBytes defaultParams (eng 0 0 0 0 0 11 false) 1000 = 11 ∧
    forecastBytes defaultParams (eng 4 10 20 0 0 0 false) 100 = 1 ∧
    forecastBytes defaultParams (eng 6 15 20 0 0 0 false) 100 = 12 ∧
    forecastBytes defaultParams (eng 5 20 30 0 0 0 false) 33 = 2 := by decide

/-! ## The mappers (95 2.5 to 2.8) -/

theorem test_dbpsk_0x80 : mapBitsDbpsk 1 0x80 = ⟨s1 ++ s1 ++ s1 ++ s1 ++ s1 ++ s1 ++ s1 ++ s3, 3⟩ := by decide
theorem test_dbpsk_0xAA : mapBitsDbpsk 0 0xAA = ⟨s0 ++ s2 ++ s2 ++ s0 ++ s0 ++ s2 ++ s2 ++ s0, 0⟩ := by decide
theorem test_dqpsk_0xE4 : mapDibitsDqpsk 0 0xE4 = ⟨s0 ++ s3 ++ s0 ++ s2, 2⟩ := by decide
theorem test_dqpsk_0xAA : mapDibitsDqpsk 1 0xAA = ⟨s2 ++ s3 ++ s0 ++ s1, 1⟩ := by decide
theorem test_cck55_0x5A : mapHalvesCck55 defaultParams 0 0x5A = ⟨[0, 3, 0, 1, 2, 1, 0, 1, 1, 2, 1, 0, 1, 2, 3, 2], 2⟩ := by decide
theorem test_cck55_0xF0 : mapHalvesCck55 defaultParams 1 0xF0 = ⟨[2, 1, 2, 3, 2, 1, 0, 1, 2, 3, 2, 1, 0, 1, 2, 1], 1⟩ := by decide
theorem test_cck11_0xE4 : mapSymbolCck11 defaultParams true 1 0xE4 = ⟨[1, 3, 0, 0, 2, 0, 3, 3], 3⟩ := by decide
theorem test_cck11_0x1B : mapSymbolCck11 defaultParams false 0 0x1B = ⟨[1, 0, 3, 0, 1, 0, 1, 2], 2⟩ := by decide

/-! ## START (95 2.11) -/

theorem test_exec_start2MShort :
    engOf (exec (.start2MShort 16) (inCall resetEngine [tagged 0x04 16] 0)) =
      some (eng 4 0 15 0 0 0 false) ∧
    callOf (exec (.start2MShort 16) (inCall resetEngine [tagged 0x04 16] 0)) =
      some ⟨1, 0, 1, 0, [.tag 1067]⟩ := by decide
theorem test_exec_start11MShort :
    engOf (exec (.start11MShort 20) (inCall resetEngine [tagged 0x06 20] 0)) =
      some (eng 6 0 19 0 0 0 false) ∧
    callOf (exec (.start11MShort 20) (inCall resetEngine [tagged 0x06 20] 0)) =
      some ⟨1, 0, 1, 0, [.tag 1099]⟩ := by decide
theorem test_exec_start1MLong :
    engOf (exec (.start1MLong 1) (inCall resetEngine [tagged 0x00 1] 0)) =
      some (eng 0 0 0 0 0 0 false) ∧
    callOf (exec (.start1MLong 1) (inCall resetEngine [tagged 0x00 1] 0)) =
      some ⟨1, 0, 1, 0, [.tag 11]⟩ := by decide
theorem test_exec_start2MLong :
    engOf (exec (.start2MLong 6) (inCall resetEngine [tagged 0x01 6] 0)) =
      some (eng 1 0 5 0 0 0 false) ∧
    callOf (exec (.start2MLong 6) (inCall resetEngine [tagged 0x01 6] 0)) =
      some ⟨1, 0, 1, 0, [.tag 451]⟩ := by decide
theorem test_exec_start55MLong :
    engOf (exec (.start55MLong 21) (inCall resetEngine [tagged 0x02 21] 0)) =
      some (eng 2 0 20 0 0 0 false) ∧
    callOf (exec (.start55MLong 21) (inCall resetEngine [tagged 0x02 21] 0)) =
      some ⟨1, 0, 1, 0, [.tag 1627]⟩ := by decide
theorem test_exec_start11MLong :
    engOf (exec (.start11MLong 2) (inCall resetEngine [tagged 0x03 2] 0)) =
      some (eng 3 0 1 0 0 0 false) ∧
    callOf (exec (.start11MLong 2) (inCall resetEngine [tagged 0x03 2] 0)) =
      some ⟨1, 0, 1, 0, [.tag 99]⟩ := by decide
theorem test_exec_start55MShort :
    engOf (exec (.start55MShort 18) (inCall resetEngine [tagged 0x05 18] 0)) =
      some (eng 5 0 17 0 0 0 false) ∧
    callOf (exec (.start55MShort 18) (inCall resetEngine [tagged 0x05 18] 0)) =
      some ⟨1, 0, 1, 0, [.tag 1099]⟩ := by decide
theorem test_restart_mid_packet :
    engOf (exec (.start55MLong 5) (inCall (eng 1 3 10 2 0 0 false) [tagged 0x02 5] 0)) =
      some (eng 2 0 4 0 0 0 false) := by decide
theorem test_exec_startMalformed07 :
    engOf (exec (.startMalformed07 30) (inCall resetEngine [tagged 0x07 30] 0)) =
      some (eng 0 0 0 0 0 11 false) ∧
    callOf (exec (.startMalformed07 30) (inCall resetEngine [tagged 0x07 30] 0)) =
      some ⟨1, 0, 1, 0, [.rejectEv 0x07 1]⟩ := by decide
theorem test_exec_startMalformed08 :
    engOf (exec (.startMalformed08 1 30) (inCall resetEngine [tagged 0x09 30] 0)) =
      some (eng 0 0 0 0 0 11 false) ∧
    callOf (exec (.startMalformed08 1 30) (inCall resetEngine [tagged 0x09 30] 0)) =
      some ⟨1, 0, 1, 0, [.rejectEv 0x09 1]⟩ := by decide
theorem test_exec_startMalformed10 :
    engOf (exec (.startMalformed10 0 30) (inCall resetEngine [tagged 0x10 30] 0)) =
      some (eng 0 0 0 0 0 11 false) ∧
    callOf (exec (.startMalformed10 0 30) (inCall resetEngine [tagged 0x10 30] 0)) =
      some ⟨1, 0, 1, 0, [.rejectEv 0x10 1]⟩ := by decide
theorem test_exec_startMalformed20 :
    engOf (exec (.startMalformed20 31 30) (inCall resetEngine [tagged 0x3F 30] 0)) =
      some (eng 0 0 0 0 0 11 false) ∧
    callOf (exec (.startMalformed20 31 30) (inCall resetEngine [tagged 0x3F 30] 0)) =
      some ⟨1, 0, 1, 0, [.rejectEv 0x3F 1]⟩ := by decide
theorem test_exec_startMalformed40 :
    engOf (exec (.startMalformed40 0 30) (inCall resetEngine [tagged 0x40 30] 0)) =
      some (eng 0 0 0 0 0 11 false) ∧
    callOf (exec (.startMalformed40 0 30) (inCall resetEngine [tagged 0x40 30] 0)) =
      some ⟨1, 0, 1, 0, [.rejectEv 0x40 1]⟩ := by decide
theorem test_exec_startMalformed80_trailer :
    engOf (exec (.startMalformed80 127 4)
      { inCall resetEngine [tagged 0xFF 4] 0 with
        params := { defaultParams with malformedTrailer := true } }) =
      some (eng 0 0 0 0 0 0 false) := by decide
theorem test_exec_refuse :
    refusalOf (step (inCall resetEngine [tagged 0x03 0] 0)) = some .inadmissibleLength ∧
    refusalOf (step (inCall resetEngine [tagged 0x03 (2 ^ 32 + 1)] 0)) =
      some .inadmissibleLength := by decide

theorem test_exec_refuse_width_5 :
    refusalOf (step { inCall resetEngine [tagged 0x03 33] 0 with
      params := { defaultParams with cntW := 5 } }) = some .inadmissibleLength ∧
    engOf (step { inCall resetEngine [tagged 0x03 32] 0 with
      params := { defaultParams with cntW := 5 } }) = some (eng 3 0 31 0 0 0 false) := by decide

/-! ## MAP (95 2.12) -/

theorem test_exec_mapDbpsk :
    engOf (exec (.mapDbpsk 0x01) (inCall (eng 0 0 20 0 0 0 false) [byte 0x01] 88)) = some (eng 0 1 20 2 0 0 false) ∧
    callOf (exec (.mapDbpsk 0x01) (inCall (eng 0 0 20 0 0 0 false) [byte 0x01] 88)) =
      some ⟨1, 88, 1, 88, chips (s2 ++ s2 ++ s2 ++ s2 ++ s2 ++ s2 ++ s2 ++ s2)⟩ := by decide
theorem test_mapDbpsk_waits :
    exec (.mapDbpsk 0x01) (inCall (eng 0 0 20 0 0 0 false) [byte 0x01] 87) =
      .next (returnCall (inCall (eng 0 0 20 0 0 0 false) [byte 0x01] 87)) := by rfl
theorem test_exec_mapDqpsk :
    engOf (exec (.mapDqpsk 0x1B) (inCall (eng 4 15 16 0 0 0 false) [byte 0x1B] 44)) = some (eng 4 16 16 2 4 0 false) ∧
    callOf (exec (.mapDqpsk 0x1B) (inCall (eng 4 15 16 0 0 0 false) [byte 0x1B] 44)) =
      some ⟨1, 44, 1, 44, chips (s2 ++ s3 ++ s2 ++ s2)⟩ := by decide
theorem test_mapDqpsk_waits :
    exec (.mapDqpsk 0x1B) (inCall (eng 4 15 16 0 0 0 false) [byte 0x1B] 43) =
      .next (returnCall (inCall (eng 4 15 16 0 0 0 false) [byte 0x1B] 43)) := by rfl
theorem test_exec_mapCck55 :
    engOf (exec (.mapCck55 0xA5) (inCall (eng 5 15 17 3 0 0 false) [byte 0xA5] 16)) = some (eng 5 16 17 1 2 0 false) ∧
    callOf (exec (.mapCck55 0xA5) (inCall (eng 5 15 17 3 0 0 false) [byte 0xA5] 16)) =
      some ⟨1, 16, 1, 16, chips ([1, 2, 1, 0, 1, 2, 3, 2, 0, 3, 0, 1, 2, 1, 0, 1])⟩ := by decide
theorem test_mapCck55_waits :
    exec (.mapCck55 0xA5) (inCall (eng 5 15 17 3 0 0 false) [byte 0xA5] 15) =
      .next (returnCall (inCall (eng 5 15 17 3 0 0 false) [byte 0xA5] 15)) := by rfl
theorem test_exec_mapCck11 :
    engOf (exec (.mapCck11 0x00) (inCall (eng 6 16 19 0 1 0 false) [byte 0x00] 8)) = some (eng 6 17 19 2 2 0 false) ∧
    callOf (exec (.mapCck11 0x00) (inCall (eng 6 16 19 0 1 0 false) [byte 0x00] 8)) =
      some ⟨1, 8, 1, 8, chips ([2, 2, 2, 0, 2, 2, 0, 2])⟩ := by decide
theorem test_mapCck11_waits :
    exec (.mapCck11 0x00) (inCall (eng 6 16 19 0 1 0 false) [byte 0x00] 7) =
      .next (returnCall (inCall (eng 6 16 19 0 1 0 false) [byte 0x00] 7)) := by rfl

/-! ## TRAILER, DISCARD, FAULT, RESET (95 2.13, 2.14, 2.16) -/

theorem test_exec_trailer :
    engOf (exec .trailer (inCall (eng 4 16 16 2 4 0 false) [] 11)) =
      some (eng 4 16 16 2 4 11 false) ∧
    callOf (exec .trailer (inCall (eng 4 16 16 2 4 0 false) [] 11)) =
      some ⟨0, 11, 0, 11, chips s0⟩ := by decide
theorem test_trailer_before_start :
    selectIn (inCall (eng 4 16 16 2 4 0 false) [tagged 0x01 2] 10) ⟨1, 10, 0, 0, []⟩ = none := by decide
theorem test_exec_discard :
    engOf (exec (.discard 0x55) (inCall resetEngine [byte 0x55, tagged 0x02 5] 0)) =
      some resetEngine ∧
    callOf (exec (.discard 0x55) (inCall resetEngine [byte 0x55, tagged 0x02 5] 0)) =
      some ⟨2, 0, 1, 0, []⟩ := by decide
theorem test_step_fault_rate :
    engOf (step (inCall (eng 7 0 5 1 0 0 false) [byte 0] 100)) = some (eng 7 0 5 1 0 0 true) ∧
    callOf (step (inCall (eng 7 0 5 1 0 0 false) [byte 0] 100)) =
      some ⟨1, 100, 0, 0, [.fatalEv 2]⟩ := by decide
theorem test_step_fault_state :
    callOf (step (inCall (eng 1 6 5 0 0 0 false) [] 0)) = some ⟨0, 0, 0, 0, [.fatalEv 3]⟩ := by decide
theorem test_exec_reset :
    engOf (exec .reset { State.reset with eng := eng 7 0 5 1 0 0 true }) =
      some (eng 0 0 0 0 0 11 false) := by decide
theorem test_reset_in_call :
    refusalOf (exec .reset (inCall resetEngine [] 0)) = some .resetDuringCall := by decide

/-! ## PROCESS and FORECAST (95 P6, P5 call 5, 2.15) -/

theorem test_exec_process_p6 :
    repliesOf (exec (.process 2 100) { State.reset with input := [byte 0, tagged 0 1] }) =
      [.returned 2 11 ([.tag 11] ++ chips s0)] := by decide
theorem test_exec_process_stuck :
    repliesOf (exec (.process 1 100)
      { State.reset with eng := eng 7 0 5 1 0 0 true, input := [tagged 0 2] }) =
      [.returned 0 0 []] := by decide
theorem test_exec_forecast :
    repliesOf (exec (.forecast 100) State.reset) = [.forecast 1] := by decide
theorem test_step_fetches_word :
    step (State.reset.withFetchWord 8 0x04) =
      exec (.start2MShort 1) (State.reset.withFetchWord 8 0x04) := by rfl

/-! ## Witnesses: the hypotheses of each obligation can be met, clause by clause, at boundary values -/

/-- `S` in PREAMBLE at its last byte, HEADER at its first and last, PAYLOAD at its first, TRAILER,
BADRATE, BADSTATE and FAULTED. -/
def preambleEng : Engine := eng 0 17 20 1 0 0 false
def headerEng : Engine := eng 4 9 16 1 0 0 false
def headerEndEng : Engine := eng 6 14 16 1 0 0 false
def payloadEng (rate : Rate) : Engine :=
  eng rate (if shortPreamble rate then 15 else 18) 30 1 0 0 false
def trailerEng : Engine := eng 4 16 16 2 4 0 false
def badRateEng : Engine := eng 7 0 5 1 0 0 false
def badStateEng : Engine := eng 1 6 5 0 0 0 false
def faultedEng : Engine := eng 7 0 5 1 0 0 true

/-- A frame of a call just opened. -/
def opened (window cap : Nat) : Call := ⟨window, cap, 0, 0, []⟩

theorem witness_StepRunsSelectedInstruction :
    (inCall resetEngine [byte 0x55] 0).call = some (opened 1 0) ∧
    selectIn (inCall resetEngine [byte 0x55] 0) (opened 1 0) = some (.discard 0x55) ∧
    (inCall resetEngine [] 0).call = some (opened 0 0) ∧
    selectIn (inCall resetEngine [] 0) (opened 0 0) = none ∧
    State.reset.call = none ∧ State.reset.ops = [] ∧ State.reset.eng.fault = false ∧
    { State.reset with ops := [.reset] }.ops = .reset :: [] ∧
    { State.reset with eng := faultedEng }.eng.fault = true := by decide

theorem witness_StepRunsTheDecodedByte :
    (inCall preambleEng [byte 1] 88).call = some (opened 1 88) ∧
    readsAnnotated (segment defaultParams preambleEng) = true ∧
    headItem (inCall preambleEng [byte 1] 88) (opened 1 88) = some (byte 1) ∧
    decode 32 (segment defaultParams preambleEng) 0 (byte 1) = .ok (.mapDbpsk 1) ∧
    slotsNeeded defaultParams preambleEng (.mapDbpsk 1) ≤ 88 - 0 := by decide

theorem witness_SelectorBytesDecode :
    (1 ≤ 1 ∧ 1 ≤ 2 ^ 32) ∧ (1 ≤ 2 ^ 32 ∧ 2 ^ 32 ≤ 2 ^ 32) ∧ 7 ≤ (0x07 : Byte).toNat ∧
    7 ≤ (0xFF : Byte).toNat := by decide

theorem witness_DecodeInvertsEncode :
    (Instr.start11MShort (2 ^ 32)).wellFormed 32 = true ∧
    encode (.start11MShort (2 ^ 32)) = some ⟨6, some (2 ^ 32)⟩ ∧
    (Instr.start11MShort (2 ^ 32)).readIn .header 5 = true ∧
    (Instr.mapCck11 0xFF).wellFormed 5 = true ∧ encode (.mapCck11 0xFF) = some ⟨0xFF, none⟩ ∧
    (Instr.mapCck11 0xFF).readIn .payload 6 = true := by decide

theorem witness_EncodeInvertsDecode :
    decode 5 .payload 6 ⟨0xFF, none⟩ = .ok (.mapCck11 0xFF) ∧
    decode 32 .idle 0 ⟨0x80, some 1⟩ = .ok (.startMalformed80 0 1) := by decide

theorem witness_PlacedTableWordRuns : 0 < 256 ∧ 255 < 256 := by decide

theorem witness_StepRefusesOnlyBadAnnotations :
    step (inCall resetEngine [tagged 3 0] 0) = .refused .inadmissibleLength ∧
    step { State.reset with ops := [.process 2 0], input := [byte 9, tagged 3 (2 ^ 32 + 1)] } =
      .refused .inadmissibleLength ∧
    step { State.reset with eng := faultedEng } = .fault .fatal := ⟨rfl, rfl, rfl⟩

theorem witness_ValidSelectorStartsPacket :
    ∀ x ∈ ([0, 1, 2, 3, 4, 5, 6] : List Byte), ∀ len ∈ [1, 2 ^ 32],
      ∀ S ∈ [resetEngine, preambleEng, headerEng, payloadEng 3],
        (inCall S [tagged x len] 0).call = some (opened 1 0) ∧
        headItem (inCall S [tagged x len] 0) (opened 1 0) = some ⟨x, some len⟩ ∧
        readsAnnotated (segment defaultParams S) = true ∧ 1 ≤ len ∧ len ≤ 2 ^ 32 := by decide

theorem witness_MalformedSelectorIsRejected :
    (∀ x ∈ ([0x07, 0x08, 0x0F, 0x10, 0x1F, 0x20, 0x3F, 0x40, 0x7F, 0x80, 0xFF] : List Byte),
      ∀ len ∈ [1, 2 ^ 32],
        (inCall resetEngine [tagged x len] 0).call = some (opened 1 0) ∧
        headItem (inCall resetEngine [tagged x len] 0) (opened 1 0) = some ⟨x, some len⟩ ∧
        readsAnnotated (segment defaultParams resetEngine) = true ∧ 1 ≤ len ∧ len ≤ 2 ^ 32) ∧
    (0x0F : Byte) = (0b00001#5 ++ 7#3 : BitVec 8) ∧ (0x10 : Byte) = (0b0001#4 ++ 0#4 : BitVec 8) ∧
    (0x3F : Byte) = (0b001#3 ++ 31#5 : BitVec 8) ∧ (0x40 : Byte) = (0b01#2 ++ 0#6 : BitVec 8) ∧
    (0xFF : Byte) = (0b1#1 ++ 127#7 : BitVec 8) := by decide

theorem witness_InadmissibleAnnotationIsRefused :
    isStart (.start2MLong 0) = true ∧ (Instr.start2MLong 0).wellFormed 32 = false ∧
    (∀ len ∈ [0, 2 ^ 32 + 1],
      (inCall resetEngine [tagged 3 len] 0).call = some (opened 1 0) ∧
      headItem (inCall resetEngine [tagged 3 len] 0) (opened 1 0) = some ⟨3, some len⟩ ∧
      readsAnnotated (segment defaultParams resetEngine) = true ∧ (len = 0 ∨ 2 ^ 32 < len)) := by
  decide

theorem witness_DbpskMapsEightBits :
    ((inCall preambleEng [byte 0xA5] 88).call = some (opened 1 88) ∧
      headItem (inCall preambleEng [byte 0xA5] 88) (opened 1 88) = some ⟨0xA5, none⟩ ∧
      segment defaultParams preambleEng = .preamble ∧ 88 ≤ 88 - 0) ∧
    ((inCall (payloadEng 0) [byte 0xA5] 88).call = some (opened 1 88) ∧
      headItem (inCall (payloadEng 0) [byte 0xA5] 88) (opened 1 88) = some ⟨0xA5, none⟩ ∧
      segment defaultParams (payloadEng 0) = .payload ∧ (payloadEng 0).rate = 0 ∧ 88 ≤ 88 - 0) := by decide

theorem witness_DqpskMapsFourDibits :
    ((inCall headerEng [byte 0xA5] 44).call = some (opened 1 44) ∧
      headItem (inCall headerEng [byte 0xA5] 44) (opened 1 44) = some ⟨0xA5, none⟩ ∧
      segment defaultParams headerEng = .header ∧ 44 ≤ 44 - 0) ∧
    ((inCall headerEndEng [byte 0xA5] 44).call = some (opened 1 44) ∧
      headItem (inCall headerEndEng [byte 0xA5] 44) (opened 1 44) = some ⟨0xA5, none⟩ ∧
      segment defaultParams headerEndEng = .header ∧ 44 ≤ 44 - 0) ∧
    ((inCall (payloadEng 1) [byte 0xA5] 44).call = some (opened 1 44) ∧
      headItem (inCall (payloadEng 1) [byte 0xA5] 44) (opened 1 44) = some ⟨0xA5, none⟩ ∧
      segment defaultParams (payloadEng 1) = .payload ∧ (payloadEng 1).rate = 1 ∧ 44 ≤ 44 - 0) ∧
    ((inCall (payloadEng 4) [byte 0xA5] 44).call = some (opened 1 44) ∧
      headItem (inCall (payloadEng 4) [byte 0xA5] 44) (opened 1 44) = some ⟨0xA5, none⟩ ∧
      segment defaultParams (payloadEng 4) = .payload ∧ (payloadEng 4).rate = 4 ∧ 44 ≤ 44 - 0) := by decide

theorem witness_Cck55MapsTwoHalves :
    ((inCall (payloadEng 2) [byte 0xA5] 16).call = some (opened 1 16) ∧
      headItem (inCall (payloadEng 2) [byte 0xA5] 16) (opened 1 16) = some ⟨0xA5, none⟩ ∧
      segment defaultParams (payloadEng 2) = .payload ∧ (payloadEng 2).rate = 2 ∧ 16 ≤ 16 - 0) ∧
    ((inCall (payloadEng 5) [byte 0xA5] 16).call = some (opened 1 16) ∧
      headItem (inCall (payloadEng 5) [byte 0xA5] 16) (opened 1 16) = some ⟨0xA5, none⟩ ∧
      segment defaultParams (payloadEng 5) = .payload ∧ (payloadEng 5).rate = 5 ∧ 16 ≤ 16 - 0) := by decide

theorem witness_Cck11MapsOneSymbol :
    ((inCall (payloadEng 3) [byte 0xA5] 8).call = some (opened 1 8) ∧
      headItem (inCall (payloadEng 3) [byte 0xA5] 8) (opened 1 8) = some ⟨0xA5, none⟩ ∧
      segment defaultParams (payloadEng 3) = .payload ∧ (payloadEng 3).rate = 3 ∧ 8 ≤ 8 - 0) ∧
    ((inCall (payloadEng 6) [byte 0xA5] 8).call = some (opened 1 8) ∧
      headItem (inCall (payloadEng 6) [byte 0xA5] 8) (opened 1 8) = some ⟨0xA5, none⟩ ∧
      segment defaultParams (payloadEng 6) = .payload ∧ (payloadEng 6).rate = 6 ∧ 8 ≤ 8 - 0) := by decide

theorem witness_SymbolCounterAddsInWidth : 2 ^ 35 - 9 + 8 < 2 ^ defaultParams.symW := by decide

theorem witness_TrailerIsWholeOrWaits :
    (inCall trailerEng [] 11).call = some (opened 0 11) ∧
    (inCall trailerEng [] 10).call = some (opened 0 10) ∧
    segment defaultParams trailerEng = .trailer ∧ 11 ≤ 11 - 0 ∧ 10 - 0 < 11 := by decide

theorem witness_IdleByteIsDiscarded :
    (inCall resetEngine [byte 9] 0).call = some (opened 1 0) ∧
    headItem (inCall resetEngine [byte 9] 0) (opened 1 0) = some ⟨9, none⟩ ∧
    segment defaultParams resetEngine = .idle := by decide

theorem witness_FatalFaultIsTaken :
    (inCall badRateEng [] 0).call = some (opened 0 0) ∧
    segment defaultParams badRateEng = .badRate ∧
    segment defaultParams badStateEng = .badState := by decide

theorem witness_FaultedCallReturnsNothing :
    { State.reset with eng := faultedEng }.call = none ∧ faultedEng.fault = true := by decide

theorem witness_OnlyResetClearsFault :
    faultedEng.fault = true ∧
    ∃ t, exec (.process 0 0) { State.reset with eng := faultedEng } = .next t :=
  ⟨rfl, _, rfl⟩

theorem witness_ProcessCompletesAndAnswers :
    { State.reset with input := [tagged 3 (2 ^ 32), byte 0, tagged 9 1] }.call = none ∧
    ∀ item ∈ [tagged 3 (2 ^ 32), byte 0, tagged 9 1].take 3, ∀ len, item.tag = some len →
      1 ≤ len ∧ len ≤ 2 ^ 32 := by
  refine ⟨rfl, ?_⟩
  intro item hi len hl
  simp [tagged, byte] at hi
  rcases hi with rfl | rfl | rfl <;> simp at hl <;> omega

theorem witness_ProcessIsItsMicroSteps : State.reset.call = none := rfl

theorem witness_ForecastFloorDivides :
    (∀ r ∈ ([0, 1, 2, 3, 4, 5, 6] : List Rate), r ≠ 7) ∧
    (longPreamble 0 = true ∧ 17 < defaultParams.long1MBytes) ∧
    ¬ (longPreamble 3 = true ∧ 18 < defaultParams.long1MBytes) ∧
    (shortPreamble 4 = true ∧ 14 < 15) ∧
    ¬ (shortPreamble 6 = true ∧ 15 < 15) := by decide

theorem witness_ForecastNeverOverstates :
    resetEngine.rate ≠ 7 ∧ segment defaultParams preambleEng = .preamble := by decide

theorem witness_ResetLeavesIdle : { State.reset with eng := faultedEng }.call = none := rfl

theorem witness_OverlapIsRefused : (inCall resetEngine [] 0).call = some (opened 0 0) := rfl

theorem witness_SelectionFollowsPriority :
    segment defaultParams faultedEng = .faulted ∧ segment defaultParams badRateEng = .badRate ∧
    segment defaultParams badStateEng = .badState ∧
    segment defaultParams trailerEng = .trailer ∧ segment defaultParams resetEngine = .idle ∧
    readsAnnotated (segment defaultParams resetEngine) = true ∧
    readsAnnotated (segment defaultParams headerEng) = true ∧
    segment defaultParams headerEng ≠ .idle ∧
    faultedEng.fault = true ∧
    (badRateEng.fault = false ∧ badRateEng.dCopy < badRateEng.dCount ∧ badRateEng.dAppend = 0 ∧
      badRateEng.rate = 7) ∧
    (∀ S ∈ [eng 7 6 5 1 0 0 false, eng 7 0 5 1 0 1 false, eng 7 0 5 1 0 10 false,
        eng 0 5 5 1 0 12 false],
      S.fault = false ∧ (S.dCount < S.dCopy ∨ (S.dAppend ≠ 0 ∧ S.dAppend ≠ 11))) := by decide

/-- A state for each segment, at the edges of its condition. -/
theorem witness_SegmentFollowsRegisters :
    segment defaultParams faultedEng = .faulted ∧
    (∀ S ∈ [eng 7 6 5 1 0 0 false, eng 7 0 5 1 0 1 false, eng 0 5 5 1 0 10 false,
        eng 0 5 5 1 0 12 false], segment defaultParams S = .badState) ∧
    segment defaultParams (eng 7 4 5 1 0 11 false) = .badRate ∧
    segment defaultParams (eng 3 17 20 1 0 0 false) = .preamble ∧
    segment defaultParams (eng 4 8 20 1 0 0 false) = .preamble ∧
    segment defaultParams (eng 4 9 20 1 0 0 false) = .header ∧
    segment defaultParams (eng 6 14 20 1 0 0 false) = .header ∧
    segment defaultParams (eng 3 18 20 1 0 0 false) = .payload ∧
    segment defaultParams (eng 6 15 20 1 0 0 false) = .payload ∧
    segment defaultParams (eng 7 5 5 1 0 0 false) = .trailer ∧
    segment defaultParams (eng 7 5 5 1 0 11 false) = .idle := by decide

theorem witness_BarkerMapperSegments :
    segment defaultParams preambleEng = .preamble ∧ segment defaultParams headerEng = .header ∧
    segment defaultParams (payloadEng 0) = .payload ∧
    segment defaultParams (payloadEng 1) = .payload ∧
    segment defaultParams (payloadEng 4) = .payload ∧ longPreamble 3 = true ∧
    shortPreamble 6 = true := by decide

theorem witness_CapacityShortageOnlyReturns :
    (inCall preambleEng [byte 1] 87).call = some (opened 1 87) ∧
    candidateIn (inCall preambleEng [byte 1] 87) (opened 1 87) = some (.mapDbpsk 1) ∧
    87 - 0 < slotsNeeded defaultParams preambleEng (.mapDbpsk 1) := by decide

theorem witness_InputShortageOnlyReturns :
    (inCall preambleEng [] 88).call = some (opened 0 88) ∧
    headItem (inCall preambleEng [] 88) (opened 0 88) = none ∧
    readsAnnotated (segment defaultParams preambleEng) = true := by decide

theorem witness_AmpleCapacityMakesProgress :
    (inCall trailerEng [] 88).call = some (opened 0 88) ∧
    segment defaultParams trailerEng = .trailer ∧ 88 ≤ 88 - 0 ∧
    (inCall preambleEng [byte 1] 88).call = some (opened 1 88) ∧
    segment defaultParams preambleEng = .preamble ∧
    (headItem (inCall preambleEng [byte 1] 88) (opened 1 88)).isSome = true ∧
    segment defaultParams headerEng = .header ∧
    segment defaultParams (payloadEng 6) = .payload ∧
    segment defaultParams resetEngine = .idle ∧
    (headItem (inCall resetEngine [byte 1] 0) (opened 1 0)).isSome = true ∧
    headItem (inCall resetEngine [tagged 1 0] 0) (opened 1 0) = some ⟨1, some 0⟩ ∧
    selectIn (inCall resetEngine [tagged 1 0] 0) (opened 1 0) = some (.refuse 1 0) := by decide

theorem witness_OwedTrailerGoesFirst :
    (inCall trailerEng [tagged 1 2] 10).call = some (opened 1 10) ∧
    (inCall trailerEng [tagged 1 2] 11).call = some (opened 1 11) ∧
    segment defaultParams trailerEng = .trailer ∧ 10 - 0 < 11 ∧ 11 ≤ 11 - 0 := by decide

/-- A MAP that fits, one that does not, a START, a TRAILER and a FAULT each answer a next state. -/
theorem witness_EachStepWritesWholeGroups :
    isHostOp (.mapCck11 0) = false ∧
    (∃ t, exec (.mapCck11 0) (inCall (payloadEng 3) [byte 0] 8) = .next t) ∧
    (∃ t, exec (.mapCck11 0) (inCall (payloadEng 3) [byte 0] 7) = .next t) ∧
    (∃ t, exec (.start2MLong 3) (inCall resetEngine [tagged 1 3] 0) = .next t) ∧
    (∃ t, exec .trailer (inCall trailerEng [] 11) = .next t) ∧
    (∃ t, exec (.fault .badRateState) (inCall badRateEng [] 0) = .next t) :=
  ⟨rfl, ⟨_, rfl⟩, ⟨_, rfl⟩, ⟨_, rfl⟩, ⟨_, rfl⟩, ⟨_, rfl⟩⟩

theorem witness_CopyCounterWriters :
    isHostOp (.mapCck11 0) = false ∧ isMap (.mapCck11 0) = true ∧
    (∃ t, exec (.mapCck11 0) (inCall (payloadEng 3) [byte 0] 8) = .next t) ∧
    (∃ t, exec (.mapCck11 0) (inCall (payloadEng 3) [byte 0] 7) = .next t) ∧
    isStart (.start2MLong 3) = true ∧
    (∃ t, exec (.start2MLong 3) (inCall resetEngine [tagged 1 3] 0) = .next t) ∧
    isStart .trailer = false ∧ isMap .trailer = false ∧
    (∃ t, exec .trailer (inCall trailerEng [] 11) = .next t) ∧
    (mapper defaultParams headerEng).isSome = true :=
  ⟨rfl, rfl, ⟨_, rfl⟩, ⟨_, rfl⟩, rfl, ⟨_, rfl⟩, rfl, rfl, ⟨_, rfl⟩, rfl⟩

theorem witness_LengthCounterWriters :
    isHostOp (.start11MShort (2 ^ 32)) = false ∧
    (∃ t, exec (.start11MShort (2 ^ 32)) (inCall resetEngine [tagged 6 (2 ^ 32)] 0) = .next t) ∧
    (∃ t, exec (.startMalformed07 1) (inCall resetEngine [tagged 7 1] 0) = .next t) ∧
    isStart (.discard 7) = false ∧
    (∃ t, exec (.discard 7) (inCall resetEngine [byte 7] 0) = .next t) :=
  ⟨rfl, ⟨_, rfl⟩, ⟨_, rfl⟩, rfl, ⟨_, rfl⟩⟩

theorem witness_OtherFieldsHaveTheirWriters :
    (∃ t, exec (.discard 7) (inCall resetEngine [byte 7] 0) = .next t) ∧
    Instr.discard 7 ≠ .trailer ∧ (∀ cause, Instr.discard 7 ≠ .fault cause) ∧
    (∃ t, exec (.process 0 0) State.reset = .next t) :=
  ⟨⟨_, rfl⟩, by decide, (fun _ h => by cases h), ⟨_, rfl⟩⟩

theorem witness_WrapStaysOpenInterval : (-2 : Rat) < 3 / 2 ∧ (3 / 2 : Rat) < 2 := by norm_num

theorem witness_ExpectedLengthFormula :
    2 ^ 32 - 1 < 2 ^ defaultParams.cntW ∧ ((3 : Rate), 8) ∈ [((0 : Rate), 88), (1, 44), (2, 16), (3, 8)] ∧
    ((4 : Rate), 44) ∈ [((4 : Rate), 44), (5, 16), (6, 8)] ∧ (6 : Rate) ≠ 7 := by decide

/-- A state with a running call that meets the invariant. -/
theorem inv_in_call (items : List InItem) (cap : Nat) : Inv (inCall resetEngine items cap) := by
  refine ⟨by simp [EngineInv, inCall, resetEngine], by simp [registersFit, inCall, resetEngine],
    ?_, rfl, rfl, rfl, rfl⟩
  intro c hc
  cases hc
  exact ⟨Nat.zero_le _, by simp [inCall, openCall], Nat.zero_le _, rfl⟩

theorem witness_TagSitsAtFirstChip :
    Inv (inCall resetEngine [tagged 6 20] 0) ∧
    (inCall resetEngine [tagged 6 20] 0).call = some (opened 1 0) ∧
    isStart (.start11MShort 20) = true ∧ encode (.start11MShort 20) = some ⟨6, some 20⟩ ∧
    (6 : Byte).toNat ≤ 6 ∧
    ∃ t, exec (.start11MShort 20) (inCall resetEngine [tagged 6 20] 0) = .next t :=
  ⟨inv_in_call _ _, rfl, rfl, rfl, by decide, _, rfl⟩

theorem witness_StepKeepsInvariant :
    Inv (inCall resetEngine [tagged 6 20] 0) ∧
    (∃ t, step (inCall resetEngine [tagged 6 20] 0) = .next t) ∧ EngineInv resetEngine :=
  ⟨inv_in_call _ _, ⟨_, rfl⟩, by simp [EngineInv, resetEngine]⟩

/-- At the smallest width the last MAP of a longest packet leaves `d_copy = 2^CNT_W - 1`. -/
def widestEng : Engine := eng 3 30 31 1 8 0 false
def widestState : State :=
  { inCall widestEng [byte 0] 8 with params := { defaultParams with cntW := 5 } }

theorem witness_StepKeepsRegisterWidths :
    registersFit widestState.params widestState.eng ∧
    ∃ t, step widestState = .next t ∧ t.eng = eng 3 31 31 1 9 0 false :=
  ⟨⟨by decide, by decide, by decide⟩, _, rfl, rfl⟩

/-- A packet without data bytes and a short one, each followed by another byte. -/
theorem witness_PacketProducesItsTag :
    ∀ data ∈ ([[], [0x1B]] : List (List Byte)), ∀ sel ∈ ([0, 6] : List Byte),
      { State.reset with input := packetItems sel data ++ [byte 9] }.call = none ∧
      segment defaultParams resetEngine = .idle ∧ sel.toNat ≤ 6 ∧ data.length < 2 ^ 32 ∧
      expectedChips defaultParams (BitVec.ofNat 3 sel.toNat) data.length ≤ 99 := by decide

theorem witness_AccumulatorIsWrappedSum :
    { State.reset with input := packetItems 3 [0x01] ++ [byte 9] }.call = none ∧
    segment defaultParams resetEngine = .idle ∧ (3 : Byte).toNat ≤ 6 ∧
    [(0x01 : Byte)].length < 2 ^ 32 ∧ packetTurns defaultParams 3 [0x01] = 2 ∧
    expectedChips defaultParams (BitVec.ofNat 3 (3 : Byte).toNat) 1 ≤ 99 := by decide

/-- A packet that announces three bytes of data and holds two, in two calls: the second call's
capacity has room for one of them. -/
def partialState : State := { State.reset with input := ⟨3, some 4⟩ :: [byte 1, byte 1] }

theorem witness_AccumulatorIsSplitIndependent :
    partialState.call = none ∧ segment defaultParams resetEngine = .idle ∧ (3 : Byte).toNat ≤ 6 ∧
    [(0x01 : Byte), 0x01].length < 4 ∧ 4 ≤ 2 ^ defaultParams.cntW ∧
    ∃ t, runCalls [(1, 0), (2, 88)] partialState = .next t ∧ t.rp = partialState.rp + 1 + 1 ∧
      1 ≤ [(0x01 : Byte), 0x01].length :=
  ⟨rfl, rfl, by decide, by decide, by decide, _, rfl, rfl, by decide⟩

/-- The input of 95 P6's last call, split into two calls. -/
def p6State : State := { State.reset with input := [byte 0, tagged 0 1] }

theorem witness_ChunkedCallsAreAnInitialPart :
    p6State.call = none ∧ (∃ t, runCalls [(1, 0), (1, 10)] p6State = .next t) ∧
    ∃ u, exec (.process p6State.input.length (ampleCap p6State)) p6State = .next u :=
  ⟨rfl, ⟨_, rfl⟩, _, rfl⟩

theorem witness_ChunkedCallsAgreeWhenDone :
    p6State.call = none ∧ [(1, 0), (1, 11)] ≠ [] ∧
    ∃ t, runCalls [(1, 0), (1, 11)] p6State = .next t ∧ t.input = [] ∧
      segment t.params t.eng ≠ .trailer :=
  ⟨rfl, by decide, _, rfl, rfl, by decide⟩

theorem witness_MalformedPacketIsDropped :
    State.reset.call = none ∧ segment defaultParams resetEngine = .idle ∧
    defaultParams.malformedTrailer = false ∧ 7 ≤ (0x07 : Byte).toNat ∧ 7 ≤ (0xFF : Byte).toNat ∧
    1 ≤ 1 ∧ 2 ^ 32 ≤ 2 ^ 32 := by decide

end Sys2Proof.Tests
end

/-! PROOFS. Who writes the registers of `S` (10_state.md): what a micro-step that answers a next state has
done, said once for START and once for the other steps, and the statements read off from it. -/

namespace Sys2Proof.Machine

section
variable {i : Instr} {s t : State} {c : Call}

/-! ## What a micro-step does -/

/-- What a START of the running call `c` leaves: a valid selector starts the packet at the rate the
selector names (R212), a malformed one rejects it (R213). -/
inductive StartEffect (s : State) (c : Call) (i : Instr) : State → Prop
  | started {x : Byte} {len : Nat} (henc : encode i = some ⟨x, some len⟩) (hx : x.toNat ≤ 6)
      (hlen : admissibleLength s.params.cntW len = true) :
      StartEffect s c i (packetStarted s c (BitVec.ofNat 3 x.toNat) len)
  | rejected {x : Byte} {len : Nat} (henc : encode i = some ⟨x, some len⟩) (hx : 7 ≤ x.toNat)
      (hlen : admissibleLength s.params.cntW len = true) :
      StartEffect s c i (packetRejected s c x)

/-- The mapper's answer to a MAP; other instructions have none (R170, R180, R185, R190). -/
def mapAnswer (prm : Params) (S : Engine) : Instr → Option Mapped
  | .mapDbpsk x => some (mapBitsDbpsk S.dPhaseAcc x)
  | .mapDqpsk x => some (mapDibitsDqpsk S.dPhaseAcc x)
  | .mapCck55 x => some (mapHalvesCck55 prm S.dPhaseAcc x)
  | .mapCck11 x => some (mapSymbolCck11 prm (parityOdd S) S.dPhaseAcc x)
  | _ => none

/-- What a micro-step other than START leaves of the running call `c`. A MAP or TRAILER whose chips
do not fit lets the call return (R263). -/
inductive InPacketEffect (s : State) (c : Call) : Instr → State → Prop
  | mapped {i : Instr} {m : Mapped} (hm : mapAnswer s.params s.eng i = some m)
      (hfit : slotsNeeded s.params s.eng i ≤ freeSlots c) :
      InPacketEffect s c i (byteMapped s c m.chips m.acc (symbolsPerByte s.eng.rate))
  | discarded (x : Byte) :
      InPacketEffect s c (.discard x) { s with call := some (consumeByte c) }
  | trailerSent (hfit : trailerChips ≤ freeSlots c) :
      InPacketEffect s c .trailer
        { s with eng := { s.eng with dAppend := 11 }, call := some (emitChips trailerTable c) }
  | faulted (cause : FatalCause) : InPacketEffect s c (.fault cause) (takeFault cause s c)
  | returned {i : Instr} (hfull : freeSlots c < slotsNeeded s.params s.eng i) :
      InPacketEffect s c i (returnCall s)

/-- A byte is at least its fixed high bits: so the selectors of a row with open low bits are malformed
(R100). -/
theorem seven_le_toNat_append {w n : Nat} (high : BitVec w) (low : BitVec n)
    (h : 7 ≤ high.toNat <<< n) : 7 ≤ (high ++ low).toNat := by
  rw [BitVec.toNat_append]
  exact h.trans Nat.left_le_or

theorem startEffect_of_startValid {x : Byte} {len : Nat} (henc : encode i = some ⟨x, some len⟩)
    (hx : x.toNat ≤ 6) (h : startValid i (BitVec.ofNat 3 x.toNat) len s = .next t) :
    ∃ c, s.call = some c ∧ candidateIn s c = some i ∧ StartEffect s c i t := by
  obtain ⟨hlen, c, hc, hi, rfl⟩ := startValid_next.mp h
  exact ⟨c, hc, hi, .started henc hx hlen⟩

theorem startEffect_of_startMalformed {x : Byte} {len : Nat}
    (henc : encode i = some ⟨x, some len⟩) (hx : 7 ≤ x.toNat)
    (h : startMalformed i x len s = .next t) :
    ∃ c, s.call = some c ∧ candidateIn s c = some i ∧ StartEffect s c i t := by
  obtain ⟨hlen, c, hc, hi, rfl⟩ := startMalformed_next.mp h
  exact ⟨c, hc, hi, .rejected henc hx hlen⟩

/-- The inversion of `exec` for START. -/
theorem exec_next_of_isStart (hs : isStart i = true) (h : exec i s = .next t) :
    ∃ c, s.call = some c ∧ candidateIn s c = some i ∧ StartEffect s c i t := by
  cases i with
  | start1MLong len => exact startEffect_of_startValid (x := 0x00) rfl (by decide) h
  | start2MLong len => exact startEffect_of_startValid (x := 0x01) rfl (by decide) h
  | start55MLong len => exact startEffect_of_startValid (x := 0x02) rfl (by decide) h
  | start11MLong len => exact startEffect_of_startValid (x := 0x03) rfl (by decide) h
  | start2MShort len => exact startEffect_of_startValid (x := 0x04) rfl (by decide) h
  | start55MShort len => exact startEffect_of_startValid (x := 0x05) rfl (by decide) h
  | start11MShort len => exact startEffect_of_startValid (x := 0x06) rfl (by decide) h
  | startMalformed07 len => exact startEffect_of_startMalformed rfl (by decide) h
  | startMalformed08 low len =>
    exact startEffect_of_startMalformed rfl (seven_le_toNat_append 0b00001#5 low (by decide)) h
  | startMalformed10 low len =>
    exact startEffect_of_startMalformed rfl (seven_le_toNat_append 0b0001#4 low (by decide)) h
  | startMalformed20 low len =>
    exact startEffect_of_startMalformed rfl (seven_le_toNat_append 0b001#3 low (by decide)) h
  | startMalformed40 low len =>
    exact startEffect_of_startMalformed rfl (seven_le_toNat_append 0b01#2 low (by decide)) h
  | startMalformed80 low len =>
    exact startEffect_of_startMalformed rfl (seven_le_toNat_append 0b1#1 low (by decide)) h
  | _ => cases hs

theorem inPacketEffect_of_mapStep {m : Mapped} (hm : mapAnswer s.params s.eng i = some m)
    (h : mapStep i m s = .next t) :
    ∃ c, s.call = some c ∧ candidateIn s c = some i ∧ InPacketEffect s c i t := by
  obtain ⟨c, hc, hi, ⟨hfit, rfl⟩ | ⟨hfull, rfl⟩⟩ := mapStep_next.mp h
  · exact ⟨c, hc, hi, .mapped hm hfit⟩
  · exact ⟨c, hc, hi, .returned hfull⟩

/-- The inversion of `exec` for every micro-step but START. -/
theorem exec_next_of_not_isStart (hh : isHostOp i = false) (hs : isStart i = false)
    (h : exec i s = .next t) :
    ∃ c, s.call = some c ∧ candidateIn s c = some i ∧ InPacketEffect s c i t := by
  cases i with
  | mapDbpsk x => exact inPacketEffect_of_mapStep rfl h
  | mapDqpsk x => exact inPacketEffect_of_mapStep rfl h
  | mapCck55 x => exact inPacketEffect_of_mapStep rfl h
  | mapCck11 x => exact inPacketEffect_of_mapStep rfl h
  | discard x =>
    obtain ⟨c, hc, hi, rfl⟩ := asCandidate_next.mp h
    exact ⟨c, hc, hi, .discarded x⟩
  | trailer =>
    obtain ⟨c, hc, hi, ⟨hfit, rfl⟩ | ⟨hfull, rfl⟩⟩ := asCandidateIfFits_next.mp h
    · exact ⟨c, hc, hi, .trailerSent hfit⟩
    · exact ⟨c, hc, hi, .returned hfull⟩
  | fault cause =>
    obtain ⟨c, hc, hi, rfl⟩ := asCandidate_next.mp h
    exact ⟨c, hc, hi, .faulted cause⟩
  | refuse sel len => cases h
  | process n cap => cases hh
  | forecast n => cases hh
  | reset => cases hh
  | _ => cases hs

/-! ## `d_count` (R36) -/

/-- START writes `L - 1`, or 0 where the selector is malformed. -/
theorem StartEffect.dCount_eq (h : StartEffect s c i t) :
    ∃ x len, encode i = some ⟨x, some len⟩ ∧
      (x.toNat ≤ 6 → t.eng.dCount = len - 1) ∧ (7 ≤ x.toNat → t.eng.dCount = 0) := by
  cases h with
  | @started x len henc hx _ => exact ⟨x, len, henc, fun _ => rfl, fun h7 => by omega⟩
  | @rejected x len henc hx _ => exact ⟨x, len, henc, fun h6 => by omega, fun _ => rfl⟩

/-- No other micro-step writes it. -/
theorem InPacketEffect.dCount_eq (h : InPacketEffect s c i t) : t.eng.dCount = s.eng.dCount := by
  cases h with
  | mapped => rfl
  | discarded => rfl
  | trailerSent => rfl
  | faulted => rfl
  | returned => rw [returnCall_eng]

end

/-- Settles O38: `d_count` read off from the two inversions of `exec`. -/
theorem lengthCounterWriters : Obligations.LengthCounterWriters := by
  intro i s t hh h
  constructor
  · intro hs
    obtain ⟨c, _, _, heff⟩ := exec_next_of_isStart hs h
    exact heff.dCount_eq
  · intro hs
    obtain ⟨c, _, _, heff⟩ := exec_next_of_not_isStart hh hs h
    exact heff.dCount_eq

end Sys2Proof.Machine

/-! PROOFS. How the decoder reads an annotated byte (30_encoding.md section 1): the valid selectors by
their table rows, every other value as the malformed row whose mask it matches, with no bit dropped. -/

namespace Sys2Proof

section
variable {x : Byte} {len : Nat} {i : Instr}

/-! ## Selectors -/

/-- A word is its high field followed by the low field below it: what a row's mask fixes and what it
leaves open. -/
theorem append_low_eq_of_high_eq {m n : Nat} {x : BitVec (m + n)} {high : BitVec m}
    (h : x.extractLsb' n m = high) : high ++ x.extractLsb' 0 n = x := by
  rw [← h, BitVec.extractLsb'_append_extractLsb'_eq_extractLsb' (Nat.zero_add n).symm,
    BitVec.extractLsb'_eq_self]

/-- A selector past 0x07 that no row before the last matches has its top bit set. -/
theorem top_bit_of_no_row_before (h7 : 7 < x.toNat) (h08 : x.extractLsb' 3 5 ≠ 1)
    (h10 : x.extractLsb' 4 4 ≠ 1) (h20 : x.extractLsb' 5 3 ≠ 1) (h40 : x.extractLsb' 6 2 ≠ 1) :
    x.extractLsb' 7 1 = 1 := by
  simp only [ne_eq, ← BitVec.toNat_inj, BitVec.extractLsb'_toNat, Nat.shiftRight_eq_div_pow,
    BitVec.ofNat_eq_ofNat, BitVec.toNat_ofNat] at *
  omega

/-- Past 0x07 only the rows with open low bits are left. -/
theorem decodeSelector_of_seven_lt (h : 7 < x.toNat) :
    decodeSelector x len =
      if x.extractLsb' 3 5 = 1 then .startMalformed08 (x.extractLsb' 0 3) len
      else if x.extractLsb' 4 4 = 1 then .startMalformed10 (x.extractLsb' 0 4) len
      else if x.extractLsb' 5 3 = 1 then .startMalformed20 (x.extractLsb' 0 5) len
      else if x.extractLsb' 6 2 = 1 then .startMalformed40 (x.extractLsb' 0 6) len
      else .startMalformed80 (x.extractLsb' 0 7) len := by
  have hne {y : Byte} (hy : y.toNat ≤ 7) : x ≠ y := by
    rintro rfl
    omega
  unfold decodeSelector
  iterate 8 rw [if_neg (hne (by decide))]

/-- The readings of a malformed selector `x` (R213): one instruction per row, each encoding as `x`. -/
inductive MalformedReading (x : Byte) (len : Nat) : Instr → Prop
  | row07 (hx : 0x07 = x) : MalformedReading x len (.startMalformed07 len)
  | row08 {low : BitVec 3} (hx : 0b00001#5 ++ low = x) :
      MalformedReading x len (.startMalformed08 low len)
  | row10 {low : BitVec 4} (hx : 0b0001#4 ++ low = x) :
      MalformedReading x len (.startMalformed10 low len)
  | row20 {low : BitVec 5} (hx : 0b001#3 ++ low = x) :
      MalformedReading x len (.startMalformed20 low len)
  | row40 {low : BitVec 6} (hx : 0b01#2 ++ low = x) :
      MalformedReading x len (.startMalformed40 low len)
  | row80 {low : BitVec 7} (hx : 0b1#1 ++ low = x) :
      MalformedReading x len (.startMalformed80 low len)

/-- From 0x07 up a selector is read by the malformed row whose mask it matches (R100). -/
theorem decodeSelector_malformed (h : 7 ≤ x.toNat) :
    MalformedReading x len (decodeSelector x len) := by
  obtain h7 | h7 := h.eq_or_lt
  · obtain rfl : 0x07 = x := BitVec.eq_of_toNat_eq h7
    exact .row07 rfl
  · rw [decodeSelector_of_seven_lt h7]
    split
    next h08 => exact .row08 (append_low_eq_of_high_eq h08)
    split
    next h10 => exact .row10 (append_low_eq_of_high_eq h10)
    split
    next h20 => exact .row20 (append_low_eq_of_high_eq h20)
    split
    next h40 => exact .row40 (append_low_eq_of_high_eq h40)
    next h08 h10 h20 h40 =>
      exact .row80 (append_low_eq_of_high_eq (top_bit_of_no_row_before h7 h08 h10 h20 h40))

/-- No bit of a malformed selector is dropped (R110). -/
theorem MalformedReading.encode_eq (h : MalformedReading x len i) :
    encode i = some ⟨x, some len⟩ := by
  cases h with
  | row07 hx | row08 hx | row10 hx | row20 hx | row40 hx | row80 hx =>
    rw [← hx]
    rfl

/-- The six malformed rows of the opcode table. -/
theorem MalformedReading.row_cases (h : MalformedReading x len i) :
    i = .startMalformed07 len ∨ (∃ low, i = .startMalformed08 low len) ∨
      (∃ low, i = .startMalformed10 low len) ∨ (∃ low, i = .startMalformed20 low len) ∨
      (∃ low, i = .startMalformed40 low len) ∨ (∃ low, i = .startMalformed80 low len) := by
  cases h with
  | row07 => exact .inl rfl
  | row08 => exact .inr (.inl ⟨_, rfl⟩)
  | row10 => exact .inr (.inr (.inl ⟨_, rfl⟩))
  | row20 => exact .inr (.inr (.inr (.inl ⟨_, rfl⟩)))
  | row40 => exact .inr (.inr (.inr (.inr (.inl ⟨_, rfl⟩))))
  | row80 => exact .inr (.inr (.inr (.inr (.inr ⟨_, rfl⟩))))

/-! ## Annotated bytes -/

/-- In a segment that reads one, a byte with an admissible annotation is read as a selector (R101,
R102). -/
theorem decode_annotated {cntW : Nat} {seg : Segment} {rate : Rate}
    (hseg : readsAnnotated seg = true) (hlen : admissibleLength cntW len = true) :
    decode cntW seg rate ⟨x, some len⟩ = .ok (decodeSelector x len) := by
  have hdec : decodeAnnotated cntW x len = decodeSelector x len := if_pos hlen
  rw [← hdec]
  cases seg with
  | idle => rfl
  | preamble => rfl
  | header => rfl
  | payload => rfl
  | _ => cases hseg

end

/-- Settles O3: in IDLE an annotated byte is read as a selector, the malformed ones by
`decodeSelector_malformed`. -/
theorem selectorBytesDecode : Obligations.SelectorBytesDecode := by
  refine ⟨fun w len hpos hmax => ?_, ⟨rfl, rfl⟩, ⟨rfl, rfl⟩, ⟨rfl, rfl⟩, ⟨rfl, rfl⟩, ⟨rfl, rfl⟩,
    ⟨rfl, rfl⟩, ⟨rfl, rfl⟩⟩
  have hread (x : Byte) : decode w .idle 0 ⟨x, some len⟩ = .ok (decodeSelector x len) :=
    decode_annotated rfl (Machine.admissibleLength_iff.mpr ⟨hpos, hmax⟩)
  refine ⟨hread 0x00, hread 0x01, hread 0x02, hread 0x03, hread 0x04, hread 0x05, hread 0x06,
    fun x hx => ?_⟩
  have hmal : MalformedReading x len (decodeSelector x len) := decodeSelector_malformed hx
  exact ⟨_, hread x, hmal.encode_eq, hmal.row_cases⟩

end Sys2Proof

/-! PROOFS. Which mapper takes a byte of each segment (41_chip_mappers.md, R171 and R181): what the three
mapping segments say about the rate, and what `mapper`, `size` and `preambleBytes` answer there. -/

namespace Sys2Proof.Machine

section
variable {prm : Params} {S : Engine} {r : Rate}

/-! ## The rate of a mapping segment -/

/-- PREAMBLE is tested after BADRATE (R50), so its rate is not the reserved code. -/
theorem rate_ne_seven_of_preamble (h : segment prm S = .preamble) : S.rate ≠ 7 := by
  unfold segment at h
  split_ifs at h with _ _ _ _ hrate
  exact hrate

/-- Only a rate with the short preamble has a HEADER (R50). -/
theorem shortPreamble_of_header (h : segment prm S = .header) : shortPreamble S.rate = true := by
  unfold segment at h
  split_ifs at h with _ _ _ _ _ _ hheader
  obtain ⟨hshort, _⟩ := hheader
  exact hshort

/-! ## The mapper and the size in each mapping segment (R51, R52) -/

theorem mapper_of_preamble (h : segment prm S = .preamble) : mapper prm S = some .dbpsk := by
  rw [mapper, h]
  exact if_neg (rate_ne_seven_of_preamble h)

theorem mapper_of_header (h : segment prm S = .header) : mapper prm S = some .dqpsk := by
  rw [mapper, h]
  exact if_pos (shortPreamble_of_header h)

theorem mapper_of_payload (h : segment prm S = .payload) :
    mapper prm S = payloadMapper S.rate := by
  rw [mapper, h]
  rfl

theorem size_of_preamble (h : segment prm S = .preamble) : size prm S = some 88 := by
  rw [size, h]

theorem size_of_header (h : segment prm S = .header) : size prm S = some 44 := by
  rw [size, h]

/-! ## The preamble length -/

/-- No rate is both long and short (R34). -/
theorem not_shortPreamble_of_longPreamble (h : longPreamble r = true) :
    ¬ shortPreamble r = true := by
  revert r
  decide

theorem preambleBytes_of_longPreamble (h : longPreamble r = true) :
    preambleBytes prm r = prm.long1MBytes :=
  if_neg (not_shortPreamble_of_longPreamble h)

theorem preambleBytes_of_shortPreamble (h : shortPreamble r = true) : preambleBytes prm r = 9 :=
  if_pos h

end

/-- Settles O31: the mapper and size of each segment from the rate the segment admits, the preamble
length from the kind of the rate alone. -/
theorem barkerMapperSegments : Obligations.BarkerMapperSegments := by
  intro prm S
  refine ⟨fun hpre => ⟨mapper_of_preamble hpre, size_of_preamble hpre⟩, fun hpay hrate => ?_,
    fun hhdr => ⟨shortPreamble_of_header hhdr, mapper_of_header hhdr, size_of_header hhdr⟩,
    fun hpay hrate => ?_,
    fun r => ⟨preambleBytes_of_longPreamble, preambleBytes_of_shortPreamble⟩⟩
  · rw [mapper_of_payload hpay, hrate]
    rfl
  · rw [mapper_of_payload hpay]
    obtain hrate | hrate := hrate
    · rw [hrate]
      rfl
    · rw [hrate]
      rfl

end Sys2Proof.Machine

/-! PROOFS. The non-fatal exceptions (60_exceptions.md, R302 and R303): a call that is short of capacity
or of input selects no step, and a call that selects no step does nothing but return. -/

namespace Sys2Proof.Machine

section
variable {prm : Params} {S : Engine} {head : Option InItem} {i : Instr} {free : Nat}
  {s : State} {c : Call}

/-! ## When nothing is selected (R262) -/

/-- A candidate whose chips do not fit is not selected (R263). -/
theorem select_eq_none_of_full (hcand : candidate prm S head = some i)
    (hfull : free < slotsNeeded prm S i) : select prm S head free = none := by
  rw [Option.eq_none_iff_forall_ne_some]
  intro j hj
  obtain ⟨hcand', hfit⟩ := select_eq_some.mp hj
  obtain rfl : i = j := Option.some.inj (hcand.symm.trans hcand')
  omega

/-- The segments that read a byte have no candidate without one: the candidates that need no byte
belong to the other segments. -/
theorem candidate_eq_none_of_no_head (hreads : readsAnnotated (segment prm S) = true) :
    candidate prm S none = none := by
  rw [Option.eq_none_iff_forall_ne_some]
  intro j hj
  obtain ⟨hseg, _⟩ | ⟨hseg, _⟩ | ⟨hseg, _⟩ | ⟨_, _, hhead, _⟩ := candidate_cases hj
  · cases hseg ▸ hreads
  · cases hseg ▸ hreads
  · cases hseg ▸ hreads
  · cases hhead

theorem select_eq_none_of_candidate_eq_none (hcand : candidate prm S head = none) :
    select prm S head free = none := by
  rw [select, hcand]

/-! ## A call that selects nothing (R261) -/

/-- The step of a call that selects nothing is its return. -/
theorem step_of_selectIn_eq_none (hc : s.call = some c) (hnone : selectIn s c = none) :
    step s = .next (returnCall s) := by
  simp only [step, hc, hnone]

/-- The return adds the call's own events to the output, and no others (R84). -/
theorem returnCall_output (hc : s.call = some c) :
    (returnCall s).output = s.output ++ c.events := by
  rw [returnCall_of_some hc]

/-- The host gets the progress of the call so far (R261). -/
theorem returnCall_replies (hc : s.call = some c) :
    (returnCall s).replies = s.replies ++ [.returned c.consumed c.produced c.events] := by
  rw [returnCall_of_some hc]

/-- A call that selects nothing only returns: with its progress so far, `S` unchanged and no event of
its own (R302, R303). -/
theorem only_returns_of_selectIn_eq_none (hc : s.call = some c) (hnone : selectIn s c = none) :
    step s = .next (returnCall s) ∧ (returnCall s).eng = s.eng ∧
    (returnCall s).output = s.output ++ c.events ∧
    (returnCall s).replies = s.replies ++ [.returned c.consumed c.produced c.events] :=
  ⟨step_of_selectIn_eq_none hc hnone, returnCall_eng s, returnCall_output hc,
    returnCall_replies hc⟩

end

/-- Settles O32: a candidate that does not fit is not selected. -/
theorem capacityShortageOnlyReturns : Obligations.CapacityShortageOnlyReturns := by
  intro s c i hc hcand hfull
  have hnone : selectIn s c = none := select_eq_none_of_full hcand hfull
  exact only_returns_of_selectIn_eq_none hc hnone

/-- Settles O33: without a head byte the reading segments have no candidate. -/
theorem inputShortageOnlyReturns : Obligations.InputShortageOnlyReturns := by
  intro s c hc hhead hreads
  have hcand : candidateIn s c = none := by
    rw [candidateIn, hhead]
    exact candidate_eq_none_of_no_head hreads
  have hnone : selectIn s c = none := select_eq_none_of_candidate_eq_none hcand
  exact only_returns_of_selectIn_eq_none hc hnone

end Sys2Proof.Machine

/-! PROOFS. Decoding inverts encoding and encoding inverts decoding (30_encoding.md sections 1, 2
and 4): what each row's encoding is read as, and which instructions an annotated or unannotated
byte can be. -/

namespace Sys2Proof

section
variable {x : Byte} {len cntW : Nat} {i : Instr} {seg : Segment} {rate : Rate} {m : Mapper}

/-! ## The malformed rows (R100)

The rows before the byte's own are excluded by their fixed bits, whatever the open low bits are. -/

theorem decodeSelector_row08 (low : BitVec 3) :
    decodeSelector (0b00001#5 ++ low) len = .startMalformed08 low len := by
  rw [decodeSelector_of_seven_lt, if_pos, BitVec.extractLsb'_append_eq_right]
  all_goals revert low; decide

theorem decodeSelector_row10 (low : BitVec 4) :
    decodeSelector (0b0001#4 ++ low) len = .startMalformed10 low len := by
  rw [decodeSelector_of_seven_lt, if_neg, if_pos, BitVec.extractLsb'_append_eq_right]
  all_goals revert low; decide

theorem decodeSelector_row20 (low : BitVec 5) :
    decodeSelector (0b001#3 ++ low) len = .startMalformed20 low len := by
  rw [decodeSelector_of_seven_lt, if_neg, if_neg, if_pos, BitVec.extractLsb'_append_eq_right]
  all_goals revert low; decide

theorem decodeSelector_row40 (low : BitVec 6) :
    decodeSelector (0b01#2 ++ low) len = .startMalformed40 low len := by
  rw [decodeSelector_of_seven_lt, if_neg, if_neg, if_neg, if_pos,
    BitVec.extractLsb'_append_eq_right]
  all_goals revert low; decide

theorem decodeSelector_row80 (low : BitVec 7) :
    decodeSelector (0b1#1 ++ low) len = .startMalformed80 low len := by
  rw [decodeSelector_of_seven_lt, if_neg, if_neg, if_neg, if_neg,
    BitVec.extractLsb'_append_eq_right]
  all_goals revert low; decide

/-! ## The START instructions and their selectors -/

/-- A selector byte is always read as a START. -/
theorem isStart_decodeSelector : Machine.isStart (decodeSelector x len) = true := by
  simp only [decodeSelector, apply_ite Machine.isStart]
  simp only [Machine.isStart, ite_self]

/-- A START is read back from its selector byte and annotation (R100). -/
theorem decodeSelector_of_encode (hs : Machine.isStart i = true)
    (henc : encode i = some ⟨x, some len⟩) : decodeSelector x len = i := by
  cases i with
  | startMalformed08 low _ => cases henc; exact decodeSelector_row08 low
  | startMalformed10 low _ => cases henc; exact decodeSelector_row10 low
  | startMalformed20 low _ => cases henc; exact decodeSelector_row20 low
  | startMalformed40 low _ => cases henc; exact decodeSelector_row40 low
  | startMalformed80 low _ => cases henc; exact decodeSelector_row80 low
  | mapDbpsk | mapDqpsk | mapCck55 | mapCck11 | discard | trailer | fault | refuse | process
  | forecast | reset => cases hs
  | _ => cases henc; rfl

/-- No bit of a selector is dropped (R110). -/
theorem encode_decodeSelector : encode (decodeSelector x len) = some ⟨x, some len⟩ := by
  obtain h | h := Nat.lt_or_ge x.toNat 7
  · obtain ⟨k, rfl⟩ : ∃ k : Fin 7, BitVec.ofNat 8 k = x := ⟨⟨x.toNat, h⟩, by simp⟩
    fin_cases k <;> rfl
  · exact (decodeSelector_malformed h).encode_eq

/-- Every START has a selector byte and an annotation, which alone decides whether it is well
formed (R102). -/
theorem encode_of_isStart (hs : Machine.isStart i = true) :
    ∃ x len, encode i = some ⟨x, some len⟩ ∧ i.wellFormed cntW = admissibleLength cntW len := by
  cases i with
  | mapDbpsk | mapDqpsk | mapCck55 | mapCck11 | discard | trailer | fault | refuse | process
  | forecast | reset => cases hs
  | _ => exact ⟨_, _, rfl, rfl⟩

theorem wellFormed_decodeSelector :
    (decodeSelector x len).wellFormed cntW = admissibleLength cntW len := by
  obtain ⟨x', len', henc, hwf⟩ := encode_of_isStart (cntW := cntW) (isStart_decodeSelector (x := x)
    (len := len))
  rw [encode_decodeSelector] at henc
  cases henc
  exact hwf

/-- A START is read wherever an annotated byte is (opcode_table.json, format SEL). -/
theorem readIn_of_isStart (hs : Machine.isStart i = true) :
    i.readIn seg rate = readsAnnotated seg := by
  cases i with
  | mapDbpsk | mapDqpsk | mapCck55 | mapCck11 | discard | trailer | fault | refuse | process
  | forecast | reset => cases hs
  | _ => rfl

/-! ## The decoder on each kind of byte (R110) -/

/-- An inadmissible annotation is read as REFUSE wherever an annotated byte is read (R262). -/
theorem decode_inadmissible (hseg : readsAnnotated seg = true)
    (hlen : admissibleLength cntW len = false) :
    decode cntW seg rate ⟨x, some len⟩ = .ok (.refuse x len) := by
  have hdec : decodeAnnotated cntW x len = .refuse x len := if_neg (by simp [hlen])
  rw [← hdec]
  cases seg with
  | idle | preamble | header | payload => rfl
  | _ => cases hseg

/-- A data byte is read by the mapper of its segment (R103). -/
theorem decode_data (hm : mapperAt seg rate = some m) :
    decode cntW seg rate ⟨x, none⟩ = .ok (mapInstr m x) := by
  have hdata : decodeData seg rate x = .ok (mapInstr m x) := by simp only [decodeData, hm]
  cases seg with
  | preamble | header | payload => exact hdata
  | _ => cases hm

/-- Where a segment has a mapper, an annotated byte is read too. -/
theorem readsAnnotated_of_mapperAt (hm : mapperAt seg rate = some m) :
    readsAnnotated seg = true := by
  cases seg with
  | preamble | header | payload => rfl
  | _ => cases hm

/-- The MAP of a mapper is read exactly where that mapper is the segment's. -/
theorem readIn_mapInstr : (mapInstr m x).readIn seg rate = (mapperAt seg rate == some m) := by
  cases m <;> rfl

theorem encode_mapInstr : encode (mapInstr m x) = some ⟨x, none⟩ := by
  cases m <;> rfl

theorem wellFormed_mapInstr : (mapInstr m x).wellFormed cntW = true := by
  cases m <;> rfl

/-- Every mapper is some segment's at some rate (R103). -/
theorem exists_mapperAt (m : Mapper) : ∃ seg rate, mapperAt seg rate = some m := by
  cases m with
  | dbpsk => exact ⟨.preamble, 0, rfl⟩
  | dqpsk => exact ⟨.payload, 1, rfl⟩
  | cck55 => exact ⟨.payload, 2, rfl⟩
  | cck11 => exact ⟨.payload, 3, rfl⟩

/-- The instructions with an encoding: START, REFUSE, the four MAPs and DISCARD. -/
inductive Encodable : Instr → Prop
  | start {i : Instr} (hs : Machine.isStart i = true) : Encodable i
  | refuse (x : Byte) (len : Nat) : Encodable (.refuse x len)
  | map (m : Mapper) (x : Byte) : Encodable (mapInstr m x)
  | discard (x : Byte) : Encodable (.discard x)

theorem encodable_of_encode {item : InItem} (henc : encode i = some item) : Encodable i := by
  cases i with
  | mapDbpsk x => exact .map .dbpsk x
  | mapDqpsk x => exact .map .dqpsk x
  | mapCck55 x => exact .map .cck55 x
  | mapCck11 x => exact .map .cck11 x
  | discard x => exact .discard x
  | refuse x len => exact .refuse x len
  | trailer | fault | process | forecast | reset => cases henc
  | _ => exact .start rfl

end

/-- Settles O5, by the kinds of instruction that have an encoding. -/
theorem decodeInvertsEncode : Obligations.DecodeInvertsEncode := by
  intro w i item hwf henc
  cases encodable_of_encode henc with
  | start hs =>
    obtain ⟨x, len, henc', hlen⟩ := encode_of_isStart (cntW := w) hs
    obtain rfl : ⟨x, some len⟩ = item := Option.some.inj (henc'.symm.trans henc)
    refine ⟨fun seg rate hread => ?_, .idle, 0, readIn_of_isStart hs⟩
    rw [readIn_of_isStart hs] at hread
    rw [decode_annotated hread (hlen ▸ hwf), decodeSelector_of_encode hs henc]
  | refuse x len =>
    cases henc
    have hlen : admissibleLength w len = false := by simpa [Instr.wellFormed] using hwf
    exact ⟨fun seg rate hread => decode_inadmissible hread hlen, .idle, 0, rfl⟩
  | map m x =>
    obtain rfl : ⟨x, none⟩ = item := Option.some.inj (encode_mapInstr.symm.trans henc)
    simp only [readIn_mapInstr, beq_iff_eq]
    exact ⟨fun seg rate hm => decode_data hm, exists_mapperAt m⟩
  | discard x =>
    cases henc
    refine ⟨fun seg rate hread => ?_, .idle, 0, rfl⟩
    obtain rfl : seg = .idle := by simpa [Instr.readIn] using hread
    rfl

/-- Settles O6, by the three kinds of decoded byte. -/
theorem encodeInvertsDecode : Obligations.EncodeInvertsDecode := by
  intro w seg rate item i hdec
  obtain ⟨x, tag⟩ := item
  obtain ⟨hseg, ⟨len, rfl, rfl⟩ | ⟨rfl, rfl, rfl⟩ | ⟨rfl, m, hm, rfl⟩⟩ :=
    Machine.decode_ok_cases hdec
  · cases hlen : admissibleLength w len with
    | true =>
      rw [decodeAnnotated, if_pos hlen]
      exact ⟨encode_decodeSelector, wellFormed_decodeSelector.trans hlen,
        (readIn_of_isStart isStart_decodeSelector).trans hseg⟩
    | false =>
      rw [decodeAnnotated, if_neg (by simp [hlen])]
      exact ⟨rfl, by simp [Instr.wellFormed, hlen], hseg⟩
  · exact ⟨rfl, rfl, rfl⟩
  · exact ⟨encode_mapInstr, wellFormed_mapInstr, by simp [readIn_mapInstr, hm]⟩

/-- Settles O4: each word by evaluating the decoder. -/
theorem dataBytesDecode : Obligations.DataBytesDecode := by
  unfold Obligations.DataBytesDecode
  decide

end Sys2Proof

/-! PROOFS. The segment as a function of the registers (10_state.md section 5): each segment with
the condition under which R50 gives it, and what the mapper and the size are there (R51, R52). -/

namespace Sys2Proof.Machine

section
variable {prm : Params} {S : Engine} {r : Rate} {seg : Segment} {m : Mapper}

/-! ## Rates (R34) -/

/-- A rate is the reserved code, long or short. -/
theorem rate_cases (r : Rate) :
    r = 7 ∨ (r ≤ 3 ∧ longPreamble r = true ∧ shortPreamble r = false) ∨
      (4 ≤ r ∧ r ≤ 6 ∧ longPreamble r = false ∧ shortPreamble r = true) := by
  revert r
  decide

theorem shortPreamble_iff : shortPreamble r = true ↔ 4 ≤ r ∧ r ≤ 6 := by
  revert r
  decide

theorem ne_seven_of_le_six (h : r ≤ 6) : r ≠ 7 := by
  revert r
  decide

theorem ne_seven_of_le_three (h : r ≤ 3) : r ≠ 7 := by
  revert r
  decide

theorem not_shortPreamble_of_le_three (h : r ≤ 3) : shortPreamble r = false := by
  revert r
  decide

/-- Every rate but the reserved code has a payload mapper (R44). -/
theorem exists_payloadMapper (h : r ≠ 7) : ∃ m, payloadMapper r = some m := by
  rw [← Option.isSome_iff_exists]
  revert r
  decide

/-! ## The conditions of R50 -/

/-- The registers under which R50 gives each segment. -/
inductive SegmentReading (prm : Params) (S : Engine) : Segment → Prop
  | faulted (hfault : S.fault = true) : SegmentReading prm S .faulted
  | badState (hfault : S.fault = false)
      (hbad : S.dCount < S.dCopy ∨ (S.dAppend ≠ 0 ∧ S.dAppend ≠ 11)) :
      SegmentReading prm S .badState
  | badRate (hfault : S.fault = false) (hlt : S.dCopy < S.dCount)
      (happ : S.dAppend = 0 ∨ S.dAppend = 11) (hrate : S.rate = 7) :
      SegmentReading prm S .badRate
  | preamble (hfault : S.fault = false) (hlt : S.dCopy < S.dCount)
      (happ : S.dAppend = 0 ∨ S.dAppend = 11) (hrate : S.rate ≠ 7)
      (hpre : S.dCopy < preambleBytes prm S.rate) : SegmentReading prm S .preamble
  | header (hfault : S.fault = false) (hlt : S.dCopy < S.dCount)
      (happ : S.dAppend = 0 ∨ S.dAppend = 11) (hshort : shortPreamble S.rate = true)
      (hpre : preambleBytes prm S.rate ≤ S.dCopy) (hpay : S.dCopy < payloadStart prm S.rate) :
      SegmentReading prm S .header
  | payload (hfault : S.fault = false) (hlt : S.dCopy < S.dCount)
      (happ : S.dAppend = 0 ∨ S.dAppend = 11) (hrate : S.rate ≠ 7)
      (hpay : payloadStart prm S.rate ≤ S.dCopy) : SegmentReading prm S .payload
  | trailer (hfault : S.fault = false) (hdone : S.dCopy = S.dCount) (happ : S.dAppend = 0) :
      SegmentReading prm S .trailer
  | idle (hfault : S.fault = false) (hdone : S.dCopy = S.dCount) (happ : S.dAppend = 11) :
      SegmentReading prm S .idle

/-- The preamble ends where the header or the payload begins. -/
theorem preambleBytes_le_payloadStart : preambleBytes prm r ≤ payloadStart prm r := by
  unfold preambleBytes payloadStart
  split <;> omega

theorem payloadStart_of_shortPreamble (h : shortPreamble r = true) : payloadStart prm r = 15 :=
  if_pos h

/-- A rate without a header starts its payload after the preamble. -/
theorem payloadStart_of_not_shortPreamble (h : ¬ shortPreamble r = true) :
    payloadStart prm r = preambleBytes prm r :=
  (if_neg h).trans (if_neg h).symm

/-- The segment meets the condition R50 gives it. -/
theorem segmentReading_segment (prm : Params) (S : Engine) :
    SegmentReading prm S (segment prm S) := by
  unfold segment
  split
  next hfault => exact .faulted hfault
  next hfault =>
  rw [Bool.not_eq_true] at hfault
  split
  next hlt => exact .badState hfault (.inl hlt)
  next hle =>
  split
  next happ => exact .badState hfault (.inr happ)
  next happ =>
  replace happ : S.dAppend = 0 ∨ S.dAppend = 11 := by tauto
  split
  next hlt =>
    split
    next hrate => exact .badRate hfault hlt happ hrate
    next hrate =>
    split
    next hpre => exact .preamble hfault hlt happ hrate hpre
    next hpre =>
    rw [Nat.not_lt] at hpre
    split
    next hhdr =>
      obtain ⟨hshort, hend⟩ := hhdr
      exact .header hfault hlt happ hshort hpre ((payloadStart_of_shortPreamble hshort).symm ▸ hend)
    next hhdr =>
      refine .payload hfault hlt happ hrate ?_
      by_cases hshort : shortPreamble S.rate = true
      · rw [payloadStart_of_shortPreamble hshort]
        exact Nat.not_lt.mp fun h => hhdr ⟨hshort, h⟩
      · rw [payloadStart_of_not_shortPreamble hshort]
        exact hpre
  next hge =>
    have hdone : S.dCopy = S.dCount := by omega
    split
    next h0 => exact .trailer hfault hdone h0
    next h0 => exact .idle hfault hdone (happ.resolve_left h0)

/-- Conversely, the condition of a segment gives it, by the order in which R50 tests them. -/
theorem SegmentReading.segment_eq (h : SegmentReading prm S seg) : segment prm S = seg := by
  have hle : preambleBytes prm S.rate ≤ payloadStart prm S.rate := preambleBytes_le_payloadStart
  have hok (happ : S.dAppend = 0 ∨ S.dAppend = 11) : ¬ (S.dAppend ≠ 0 ∧ S.dAppend ≠ 11) := by tauto
  unfold segment
  cases h with
  | faulted hfault => rw [if_pos hfault]
  | badState hfault hbad =>
    rw [if_neg (by simp [hfault])]
    obtain hlt | happ := hbad
    · rw [if_pos hlt]
    · rw [if_pos happ, ite_self]
  | badRate hfault hlt happ hrate =>
    rw [if_neg (by simp [hfault]), if_neg (by omega), if_neg (hok happ), if_pos hlt,
      if_pos hrate]
  | preamble hfault hlt happ hrate hpre =>
    rw [if_neg (by simp [hfault]), if_neg (by omega), if_neg (hok happ), if_pos hlt,
      if_neg hrate, if_pos hpre]
  | header hfault hlt happ hshort hpre hpay =>
    rw [payloadStart_of_shortPreamble hshort] at hpay
    rw [if_neg (by simp [hfault]), if_neg (by omega), if_neg (hok happ), if_pos hlt,
      if_neg (ne_seven_of_le_six (shortPreamble_iff.mp hshort).2), if_neg (by omega),
      if_pos ⟨hshort, hpay⟩]
  | payload hfault hlt happ hrate hpay =>
    have hhdr : ¬ (shortPreamble S.rate = true ∧ S.dCopy < 9 + shortHdrBytes) := by
      rintro ⟨hshort, hlt15⟩
      rw [payloadStart_of_shortPreamble hshort] at hpay
      exact absurd hpay (Nat.not_le.mpr hlt15)
    rw [if_neg (by simp [hfault]), if_neg (by omega), if_neg (hok happ), if_pos hlt,
      if_neg hrate, if_neg (by omega), if_neg hhdr]
  | trailer hfault hdone happ =>
    rw [if_neg (by simp [hfault]), if_neg (by omega), if_neg (hok (.inl happ)),
      if_neg (by omega), if_pos happ]
  | idle hfault hdone happ =>
    rw [if_neg (by simp [hfault]), if_neg (by omega), if_neg (hok (.inr happ)),
      if_neg (by omega), if_neg (by simp [happ])]

theorem segment_eq_iff : segment prm S = seg ↔ SegmentReading prm S seg :=
  ⟨fun h => h ▸ segmentReading_segment prm S, SegmentReading.segment_eq⟩

/-- What each mapping segment says of the registers the mappers read. -/
theorem registers_of_preamble (h : segment prm S = .preamble) :
    S.dCopy < S.dCount ∧ S.rate ≠ 7 ∧ S.dCopy < preambleBytes prm S.rate := by
  cases h ▸ segmentReading_segment prm S with
  | preamble _ hlt _ hrate hpre => exact ⟨hlt, hrate, hpre⟩

theorem registers_of_header (h : segment prm S = .header) :
    S.dCopy < S.dCount ∧ shortPreamble S.rate = true ∧
      preambleBytes prm S.rate ≤ S.dCopy ∧ S.dCopy < payloadStart prm S.rate := by
  cases h ▸ segmentReading_segment prm S with
  | header _ hlt _ hshort hpre hpay => exact ⟨hlt, hshort, hpre, hpay⟩

theorem registers_of_payload (h : segment prm S = .payload) :
    S.dCopy < S.dCount ∧ S.rate ≠ 7 ∧ payloadStart prm S.rate ≤ S.dCopy := by
  cases h ▸ segmentReading_segment prm S with
  | payload _ hlt _ hrate hpay => exact ⟨hlt, hrate, hpay⟩

theorem segment_eq_faulted_iff : segment prm S = .faulted ↔ S.fault = true := by
  rw [segment_eq_iff]
  exact ⟨fun | .faulted hfault => hfault, .faulted⟩

theorem segment_eq_badState_iff : segment prm S = .badState ↔
    S.fault = false ∧ (S.dCount < S.dCopy ∨ (S.dAppend ≠ 0 ∧ S.dAppend ≠ 11)) := by
  rw [segment_eq_iff]
  exact ⟨fun | .badState hfault hbad => ⟨hfault, hbad⟩, fun ⟨hfault, hbad⟩ => .badState hfault hbad⟩

theorem segment_eq_badRate_iff : segment prm S = .badRate ↔
    S.fault = false ∧ S.dCopy < S.dCount ∧ (S.dAppend = 0 ∨ S.dAppend = 11) ∧ S.rate = 7 := by
  rw [segment_eq_iff]
  exact ⟨fun | .badRate hfault hlt happ hrate => ⟨hfault, hlt, happ, hrate⟩,
    fun ⟨hfault, hlt, happ, hrate⟩ => .badRate hfault hlt happ hrate⟩

theorem segment_eq_trailer_iff : segment prm S = .trailer ↔
    S.fault = false ∧ S.dCopy = S.dCount ∧ S.dAppend = 0 := by
  rw [segment_eq_iff]
  exact ⟨fun | .trailer hfault hdone happ => ⟨hfault, hdone, happ⟩,
    fun ⟨hfault, hdone, happ⟩ => .trailer hfault hdone happ⟩

theorem segment_eq_idle_iff : segment prm S = .idle ↔
    S.fault = false ∧ S.dCopy = S.dCount ∧ S.dAppend = 11 := by
  rw [segment_eq_iff]
  exact ⟨fun | .idle hfault hdone happ => ⟨hfault, hdone, happ⟩,
    fun ⟨hfault, hdone, happ⟩ => .idle hfault hdone happ⟩

/-! ## The mapping segments by the kind of rate -/

theorem segment_eq_preamble_iff : segment prm S = .preamble ↔
    S.fault = false ∧ S.dCopy < S.dCount ∧ (S.dAppend = 0 ∨ S.dAppend = 11) ∧
      ((S.rate ≤ 3 ∧ S.dCopy < prm.long1MBytes) ∨ (4 ≤ S.rate ∧ S.rate ≤ 6 ∧ S.dCopy < 9)) := by
  rw [segment_eq_iff]
  constructor
  · rintro (_ | _ | _ | ⟨hfault, hlt, happ, hrate, hpre⟩)
    refine ⟨hfault, hlt, happ, ?_⟩
    obtain h7 | ⟨h3, hlong, _⟩ | ⟨h4, h6, _, hshort⟩ := rate_cases S.rate
    · exact absurd h7 hrate
    · exact .inl ⟨h3, preambleBytes_of_longPreamble (prm := prm) hlong ▸ hpre⟩
    · exact .inr ⟨h4, h6, preambleBytes_of_shortPreamble (prm := prm) hshort ▸ hpre⟩
  · rintro ⟨hfault, hlt, happ, ⟨h3, hpre⟩ | ⟨h4, h6, hpre⟩⟩
    · refine .preamble hfault hlt happ (ne_seven_of_le_three h3) ?_
      rwa [preambleBytes, not_shortPreamble_of_le_three h3]
    · refine .preamble hfault hlt happ (ne_seven_of_le_six h6) ?_
      rwa [preambleBytes_of_shortPreamble (shortPreamble_iff.mpr ⟨h4, h6⟩)]

theorem segment_eq_header_iff : segment prm S = .header ↔
    S.fault = false ∧ S.dCopy < S.dCount ∧ (S.dAppend = 0 ∨ S.dAppend = 11) ∧
      4 ≤ S.rate ∧ S.rate ≤ 6 ∧ 9 ≤ S.dCopy ∧ S.dCopy < 15 := by
  rw [segment_eq_iff]
  constructor
  · rintro (_ | _ | _ | _ | ⟨hfault, hlt, happ, hshort, hpre, hpay⟩)
    rw [preambleBytes_of_shortPreamble hshort] at hpre
    rw [payloadStart_of_shortPreamble hshort] at hpay
    obtain ⟨h4, h6⟩ := shortPreamble_iff.mp hshort
    exact ⟨hfault, hlt, happ, h4, h6, hpre, hpay⟩
  · rintro ⟨hfault, hlt, happ, h4, h6, hpre, hpay⟩
    have hshort : shortPreamble S.rate = true := shortPreamble_iff.mpr ⟨h4, h6⟩
    exact .header hfault hlt happ hshort (by rwa [preambleBytes_of_shortPreamble hshort])
      (by rwa [payloadStart_of_shortPreamble hshort])

theorem segment_eq_payload_iff : segment prm S = .payload ↔
    S.fault = false ∧ S.dCopy < S.dCount ∧ (S.dAppend = 0 ∨ S.dAppend = 11) ∧
      ((S.rate ≤ 3 ∧ prm.long1MBytes ≤ S.dCopy) ∨
        (4 ≤ S.rate ∧ S.rate ≤ 6 ∧ 15 ≤ S.dCopy)) := by
  rw [segment_eq_iff]
  constructor
  · rintro (_ | _ | _ | _ | _ | ⟨hfault, hlt, happ, hrate, hpay⟩)
    refine ⟨hfault, hlt, happ, ?_⟩
    obtain h7 | ⟨h3, _, hshort⟩ | ⟨h4, h6, _, hshort⟩ := rate_cases S.rate
    · exact absurd h7 hrate
    · rw [payloadStart, hshort] at hpay
      exact .inl ⟨h3, hpay⟩
    · rw [payloadStart, hshort] at hpay
      exact .inr ⟨h4, h6, hpay⟩
  · rintro ⟨hfault, hlt, happ, ⟨h3, hpay⟩ | ⟨h4, h6, hpay⟩⟩
    · refine .payload hfault hlt happ (ne_seven_of_le_three h3) ?_
      rwa [payloadStart, not_shortPreamble_of_le_three h3]
    · refine .payload hfault hlt happ (ne_seven_of_le_six h6) ?_
      rwa [payloadStart_of_shortPreamble (shortPreamble_iff.mpr ⟨h4, h6⟩)]

/-! ## The mapper and its chips -/

/-- Only the three mapping segments have a mapper (R52). -/
theorem segment_of_mapper (h : mapper prm S = some m) :
    segment prm S = .preamble ∨ segment prm S = .header ∨ segment prm S = .payload := by
  unfold mapper mapperAt at h
  split at h
  next hseg => exact .inl hseg
  next hseg => exact .inr (.inl hseg)
  next hseg => exact .inr (.inr hseg)
  all_goals cases h

/-- Each of the three has one: its rate is not the reserved code. -/
theorem exists_mapper (h : segment prm S = .preamble ∨ segment prm S = .header ∨
    segment prm S = .payload) : ∃ m, mapper prm S = some m := by
  obtain hpre | hhdr | hpay := h
  · exact ⟨_, mapper_of_preamble hpre⟩
  · exact ⟨_, mapper_of_header hhdr⟩
  · rw [mapper_of_payload hpay]
    obtain ⟨_, hrate, _⟩ := registers_of_payload hpay
    exact exists_payloadMapper hrate

theorem chipsPerByte_of_payloadMapper (h : payloadMapper r = some m) :
    chipsPerByte r = mapperChips m := by
  rw [chipsPerByte, h]

theorem symbolsPerByte_of_payloadMapper (h : payloadMapper r = some m) :
    symbolsPerByte r = mapperSymbols m := by
  rw [symbolsPerByte, h]

/-- The size of a mapping segment is its mapper's group (R51, R197). -/
theorem size_of_mapper (h : mapper prm S = some m) : size prm S = some (mapperChips m) := by
  obtain hpre | hhdr | hpay := segment_of_mapper h
  · obtain rfl : .dbpsk = m := Option.some.inj ((mapper_of_preamble hpre).symm.trans h)
    exact size_of_preamble hpre
  · obtain rfl : .dqpsk = m := Option.some.inj ((mapper_of_header hhdr).symm.trans h)
    exact size_of_header hhdr
  · rw [mapper_of_payload hpay] at h
    rw [size, hpay]
    exact congrArg some (chipsPerByte_of_payloadMapper h)

/-- A segment without a mapper has no size. -/
theorem size_of_mapper_eq_none (h : mapper prm S = none) : size prm S = none := by
  have hseg : ¬ (segment prm S = .preamble ∨ segment prm S = .header ∨
      segment prm S = .payload) := fun hmap => by
    obtain ⟨m, hm⟩ := exists_mapper hmap
    rw [hm] at h
    cases h
  unfold size
  split
  next hpre => exact absurd (.inl hpre) hseg
  next hhdr => exact absurd (.inr (.inl hhdr)) hseg
  next hpay => exact absurd (.inr (.inr hpay)) hseg
  all_goals rfl

/-- Where there is a mapper, a byte of the packet is still to come and the rate is valid. -/
theorem lt_of_mapper (h : mapper prm S = some m) : S.dCopy < S.dCount ∧ S.rate ≠ 7 := by
  obtain hseg | hseg | hseg := segment_of_mapper h
  · obtain ⟨hlt, hrate, _⟩ := registers_of_preamble hseg
    exact ⟨hlt, hrate⟩
  · obtain ⟨hlt, hshort, _⟩ := registers_of_header hseg
    exact ⟨hlt, ne_seven_of_le_six (shortPreamble_iff.mp hshort).2⟩
  · obtain ⟨hlt, hrate, _⟩ := registers_of_payload hseg
    exact ⟨hlt, hrate⟩

end

/-- Settles O28: one condition for each segment. -/
theorem segmentFollowsRegisters : Obligations.SegmentFollowsRegisters := fun _ _ =>
  ⟨segment_eq_faulted_iff, segment_eq_badState_iff, segment_eq_badRate_iff,
    segment_eq_preamble_iff, segment_eq_header_iff, segment_eq_payload_iff,
    segment_eq_trailer_iff, segment_eq_idle_iff⟩

/-- Settles O30, by whether the segment has a mapper. -/
theorem mapperFitsItsSegment : Obligations.MapperFitsItsSegment := by
  intro prm S
  cases hm : mapper prm S with
  | none =>
    refine ⟨⟨nofun, fun hseg => ?_⟩, size_of_mapper_eq_none hm⟩
    obtain ⟨m, hm'⟩ := exists_mapper hseg
    rw [hm] at hm'
    cases hm'
  | some m => exact ⟨⟨fun _ => segment_of_mapper hm, fun _ => rfl⟩, size_of_mapper hm⟩

/-! ## The forecast (R280, R281) -/

section
variable {prm : Params} {S : Engine} {r : Rate}

theorem chipsPerByte_pos (h : r ≠ 7) : 0 < chipsPerByte r := by
  revert r
  decide

theorem forecastRatio_pos (h : S.rate ≠ 7) : 0 < forecastRatio prm S := by
  unfold forecastRatio
  split
  · decide
  · exact chipsPerByte_pos h

theorem forecastBytes_of_ne_seven (h : S.rate ≠ 7) (n : Nat) :
    forecastBytes prm S n = n / forecastRatio prm S :=
  if_neg h

/-- The window in which the forecast divides by 88, by the kind of rate (R280). -/
theorem forecastRatio_window_iff (h : S.rate ≠ 7) :
    (S.dCopy < preambleBytes prm S.rate ∨
        (shortPreamble S.rate = true ∧ S.dCopy < 9 + shortHdrBytes)) ↔
      (longPreamble S.rate = true ∧ S.dCopy < prm.long1MBytes) ∨
        (shortPreamble S.rate = true ∧ S.dCopy < 15) := by
  obtain h7 | ⟨_, hlong, hshort⟩ | ⟨_, _, hlong, hshort⟩ := rate_cases S.rate
  · exact absurd h7 h
  · simp [preambleBytes, hlong, hshort]
  · simp only [preambleBytes, shortHdrBytes, hlong, hshort, if_true, true_and, Bool.false_eq_true,
      false_and, false_or]
    omega

end

/-- Settles O24: the answer is the forecast, whose ratio is read by window and payload rate. -/
theorem forecastFloorDivides : Obligations.ForecastFloorDivides := by
  intro s n
  refine ⟨forecastBytes s.params s.eng n, rfl, fun h7 => ?_⟩
  rw [forecastBytes_of_ne_seven h7]
  refine ⟨fun hwin => ?_, fun hwin => ?_⟩
  · rw [forecastRatio, if_pos ((forecastRatio_window_iff h7).mpr hwin)]
  · rw [forecastRatio, if_neg (mt (forecastRatio_window_iff h7).mp hwin)]
    refine ⟨fun hr => by rw [hr]; rfl, fun hr => ?_, fun hr => ?_, fun hr => ?_⟩
    all_goals
      obtain hr | hr := hr <;> rw [hr] <;> rfl

/-- Settles O25: the bounds of a floor division, and PREAMBLE with 100 chips asked for. -/
theorem forecastNeverOverstates : Obligations.ForecastNeverOverstates := by
  refine ⟨fun prm S n h7 => ?_, fun prm S hpre => ?_⟩
  · rw [forecastBytes_of_ne_seven h7]
    refine ⟨Nat.div_mul_le_self n _, ?_⟩
    rw [Nat.mul_comm]
    exact Nat.lt_mul_div_succ n (forecastRatio_pos h7)
  · have hone : forecastBytes prm S 100 = 1 := by
      obtain ⟨_, hrate, hlt⟩ := registers_of_preamble hpre
      rw [forecastBytes_of_ne_seven hrate, forecastRatio, if_pos (.inl hlt)]
    exact ⟨hone, by rw [hone]; decide⟩

end Sys2Proof.Machine

/-! PROOFS. Step selection (43_buffer_controller.md section 1, R262 and R263): everything a
candidate can be, the slots it needs, and what is selected in each segment. -/

namespace Sys2Proof.Machine

section
variable {prm : Params} {S : Engine} {head : Option InItem} {i : Instr} {free : Nat} {x : Byte}
  {len : Nat} {m : Mapper} {s : State} {c : Call}

/-! ## Bytes taken and groups written, by kind of instruction -/

theorem groupChips_of_isStart (hs : isStart i = true) : groupChips i = 0 := by
  cases i with
  | mapDbpsk | mapDqpsk | mapCck55 | mapCck11 | trailer => cases hs
  | _ => rfl

theorem bytesTaken_of_isStart (hs : isStart i = true) : bytesTaken i = 1 := by
  cases i with
  | trailer | fault | refuse | process | forecast | reset => cases hs
  | _ => rfl

theorem slotsNeeded_of_isStart (hs : isStart i = true) : slotsNeeded prm S i = 0 := by
  cases i with
  | mapDbpsk | mapDqpsk | mapCck55 | mapCck11 | trailer => cases hs
  | _ => rfl

@[simp] theorem groupChips_decodeSelector : groupChips (decodeSelector x len) = 0 :=
  groupChips_of_isStart isStart_decodeSelector

@[simp] theorem bytesTaken_decodeSelector : bytesTaken (decodeSelector x len) = 1 :=
  bytesTaken_of_isStart isStart_decodeSelector

@[simp] theorem groupChips_mapInstr : groupChips (mapInstr m x) = mapperChips m := by
  cases m <;> rfl

@[simp] theorem bytesTaken_mapInstr : bytesTaken (mapInstr m x) = 1 := by
  cases m <;> rfl

@[simp] theorem isMap_mapInstr : isMap (mapInstr m x) = true := by
  cases m <;> rfl

theorem isHostOp_of_isStart (hs : isStart i = true) : isHostOp i = false := by
  cases i with
  | process | forecast | reset => cases hs
  | _ => rfl

theorem slotsNeeded_mapInstr : slotsNeeded prm S (mapInstr m x) = (size prm S).getD 0 := by
  cases m <;> rfl

/-- The annotations that are refused (R102, R214). -/
theorem admissibleLength_eq_false_iff {cntW : Nat} :
    admissibleLength cntW len = false ↔ len = 0 ∨ 2 ^ cntW < len := by
  rw [Bool.eq_false_iff, ne_eq, admissibleLength_iff]
  omega

/-! ## The candidate (R262, R309) -/

/-- Everything a candidate can be, with the segment and the head byte it is one for. -/
inductive CandidateReading (prm : Params) (S : Engine) (head : Option InItem) : Instr → Prop
  | badRate (hseg : segment prm S = .badRate) : CandidateReading prm S head (.fault .badRateState)
  | badState (hseg : segment prm S = .badState) :
      CandidateReading prm S head (.fault .badInvariant)
  | trailer (hseg : segment prm S = .trailer) : CandidateReading prm S head .trailer
  | start {x : Byte} {len : Nat} (hreads : readsAnnotated (segment prm S) = true)
      (hhead : head = some ⟨x, some len⟩) (hlen : admissibleLength prm.cntW len = true) :
      CandidateReading prm S head (decodeSelector x len)
  | refuse {x : Byte} {len : Nat} (hreads : readsAnnotated (segment prm S) = true)
      (hhead : head = some ⟨x, some len⟩) (hlen : admissibleLength prm.cntW len = false) :
      CandidateReading prm S head (.refuse x len)
  | discard {x : Byte} (hseg : segment prm S = .idle) (hhead : head = some ⟨x, none⟩) :
      CandidateReading prm S head (.discard x)
  | map {m : Mapper} {x : Byte} (hm : mapper prm S = some m) (hhead : head = some ⟨x, none⟩) :
      CandidateReading prm S head (mapInstr m x)

/-- Where bytes are read, the candidate is what the head byte decodes to (R110). -/
theorem candidate_of_decode {item : InItem} (hreads : readsAnnotated (segment prm S) = true)
    (hdec : decode prm.cntW (segment prm S) S.rate item = .ok i) :
    candidate prm S (some item) = some i := by
  revert hreads hdec
  unfold candidate
  cases segment prm S with
  | idle | preamble | header | payload => exact fun _ hdec => by simp only [hdec]
  | _ => nofun

theorem readsAnnotated_of_mapper (hm : mapper prm S = some m) :
    readsAnnotated (segment prm S) = true :=
  readsAnnotated_of_mapperAt hm

theorem candidate_of_trailer (hseg : segment prm S = .trailer) :
    candidate prm S head = some .trailer := by
  simp only [candidate, hseg]

theorem candidate_of_faulted (hseg : segment prm S = .faulted) : candidate prm S head = none := by
  simp only [candidate, hseg]

theorem candidate_eq_some_iff : candidate prm S head = some i ↔ CandidateReading prm S head i := by
  constructor
  · intro h
    obtain ⟨hseg, rfl⟩ | ⟨hseg, rfl⟩ | ⟨hseg, rfl⟩ | ⟨hreads, ⟨x, tag⟩, rfl, hdec⟩ :=
      candidate_cases h
    · exact .badRate hseg
    · exact .badState hseg
    · exact .trailer hseg
    · obtain ⟨_, ⟨len, rfl, rfl⟩ | ⟨rfl, hidle, rfl⟩ | ⟨rfl, m, hm, rfl⟩⟩ := decode_ok_cases hdec
      · cases hlen : admissibleLength prm.cntW len with
        | true =>
          rw [decodeAnnotated, if_pos hlen]
          exact .start hreads rfl hlen
        | false =>
          rw [decodeAnnotated, if_neg (by simp [hlen])]
          exact .refuse hreads rfl hlen
      · exact .discard hidle rfl
      · exact .map hm rfl
  · intro h
    cases h with
    | badRate hseg => simp only [candidate, hseg]
    | badState hseg => simp only [candidate, hseg]
    | trailer hseg => exact candidate_of_trailer hseg
    | start hreads hhead hlen =>
      rw [hhead]
      exact candidate_of_decode hreads (decode_annotated hreads hlen)
    | refuse hreads hhead hlen =>
      rw [hhead]
      exact candidate_of_decode hreads (decode_inadmissible hreads hlen)
    | discard hseg hhead =>
      rw [hhead]
      refine candidate_of_decode (hseg ▸ rfl) ?_
      rw [hseg]
      rfl
    | map hm hhead =>
      rw [hhead]
      exact candidate_of_decode (readsAnnotated_of_mapper hm) (decode_data hm)

/-- A segment that reads bytes is IDLE or has a mapper. -/
theorem idle_or_mapper_of_readsAnnotated (hreads : readsAnnotated (segment prm S) = true) :
    segment prm S = .idle ∨ ∃ m, mapper prm S = some m := by
  cases hseg : segment prm S with
  | idle => exact .inl rfl
  | preamble => exact .inr (exists_mapper (.inl hseg))
  | header => exact .inr (exists_mapper (.inr (.inl hseg)))
  | payload => exact .inr (exists_mapper (.inr (.inr hseg)))
  | _ => rw [hseg] at hreads; cases hreads

/-- A head byte in a segment that reads bytes always gives a candidate. -/
theorem exists_candidate_of_head {item : InItem} (hreads : readsAnnotated (segment prm S) = true) :
    ∃ i, candidate prm S (some item) = some i := by
  obtain ⟨x, tag⟩ := item
  cases tag with
  | some len =>
    cases hlen : admissibleLength prm.cntW len with
    | true => exact ⟨_, candidate_eq_some_iff.mpr (.start hreads rfl hlen)⟩
    | false => exact ⟨_, candidate_eq_some_iff.mpr (.refuse hreads rfl hlen)⟩
  | none =>
    obtain hidle | ⟨m, hm⟩ := idle_or_mapper_of_readsAnnotated hreads
    · exact ⟨_, candidate_eq_some_iff.mpr (.discard hidle rfl)⟩
    · exact ⟨_, candidate_eq_some_iff.mpr (.map hm rfl)⟩

/-- No candidate: the engine is faulted, or it waits for a byte. -/
theorem candidate_eq_none_iff : candidate prm S head = none ↔
    segment prm S = .faulted ∨ (readsAnnotated (segment prm S) = true ∧ head = none) := by
  constructor
  · intro h
    by_cases hreads : readsAnnotated (segment prm S) = true
    · cases head with
      | none => exact .inr ⟨hreads, rfl⟩
      | some item =>
        obtain ⟨i, hi⟩ := exists_candidate_of_head hreads (item := item)
        rw [h] at hi
        cases hi
    · unfold candidate at h
      cases hseg : segment prm S <;> simp [hseg, readsAnnotated] at h hreads ⊢
  · rintro (hseg | ⟨hreads, rfl⟩)
    · exact candidate_of_faulted hseg
    · exact candidate_eq_none_of_no_head hreads

/-- No host operation is ever a candidate. -/
theorem CandidateReading.isHostOp_eq (h : CandidateReading prm S head i) : isHostOp i = false := by
  cases h with
  | start => exact isHostOp_of_isStart isStart_decodeSelector
  | @map m x => cases m <;> rfl
  | _ => rfl

/-- A candidate needs the slots of its own group (R263). -/
theorem CandidateReading.slotsNeeded_eq (h : CandidateReading prm S head i) :
    slotsNeeded prm S i = groupChips i := by
  cases h with
  | start =>
    rw [groupChips_decodeSelector]
    exact slotsNeeded_of_isStart isStart_decodeSelector
  | map hm _ => rw [slotsNeeded_mapInstr, groupChips_mapInstr, size_of_mapper hm, Option.getD_some]
  | _ => rfl

/-- REFUSE is the candidate exactly for a head byte with an inadmissible annotation (R214). -/
theorem candidateReading_refuse_iff : CandidateReading prm S head (.refuse x len) ↔
    readsAnnotated (segment prm S) = true ∧ head = some ⟨x, some len⟩ ∧
      admissibleLength prm.cntW len = false := by
  constructor
  · intro h
    generalize hi : Instr.refuse x len = i at h
    cases h with
    | start => cases hi ▸ isStart_decodeSelector
    | refuse hreads hhead hlen => cases hi; exact ⟨hreads, hhead, hlen⟩
    | @map m => cases m <;> cases hi
    | _ => cases hi
  · rintro ⟨hreads, hhead, hlen⟩
    exact .refuse hreads hhead hlen

/-! ## Selection (R262) -/

/-- A candidate is selected if its group fits, and otherwise nothing is. -/
theorem select_of_candidate (h : CandidateReading prm S head i) :
    select prm S head free = if groupChips i ≤ free then some i else none := by
  rw [← h.slotsNeeded_eq]
  simp only [select, candidate_eq_some_iff.mpr h]

theorem select_eq_some_iff : select prm S head free = some i ↔
    CandidateReading prm S head i ∧ groupChips i ≤ free := by
  rw [select_eq_some, candidate_eq_some_iff]
  exact and_congr_right fun h => by rw [h.slotsNeeded_eq]

theorem select_eq_none_iff : select prm S head free = none ↔
    candidate prm S head = none ∨ ∃ i, CandidateReading prm S head i ∧ free < groupChips i := by
  cases hcand : candidate prm S head with
  | none => simp [select, hcand]
  | some i =>
    have hread : CandidateReading prm S head i := candidate_eq_some_iff.mp hcand
    rw [select_of_candidate hread]
    constructor
    · intro h
      exact .inr ⟨i, hread, by simpa using h⟩
    · rintro (h | ⟨j, hj, hfull⟩)
      · cases h
      · obtain rfl : i = j :=
          Option.some.inj (hcand.symm.trans (candidate_eq_some_iff.mpr hj))
        exact if_neg (Nat.not_le.mpr hfull)

theorem step_of_selectIn (hc : s.call = some c) (h : selectIn s c = some i) :
    step s = exec i s := by
  simp only [step, hc, h]

/-- A candidate that fits is the step. -/
theorem step_of_candidate (hc : s.call = some c)
    (hcand : CandidateReading s.params s.eng (headItem s c) i) (hfit : groupChips i ≤ freeSlots c) :
    step s = exec i s :=
  step_of_selectIn hc (select_eq_some_iff.mpr ⟨hcand, hfit⟩)

end

/-- Settles O29: in each segment by the candidate it has there. -/
theorem selectionFollowsPriority : Obligations.SelectionFollowsPriority := by
  intro prm S head free
  have hfaulted (h : segment prm S = .faulted) : select prm S head free = none :=
    select_eq_none_iff.mpr (.inl (candidate_of_faulted h))
  have hbadRate (h : segment prm S = .badRate) :
      select prm S head free = some (.fault .badRateState) :=
    select_eq_some_iff.mpr ⟨.badRate h, Nat.zero_le _⟩
  have hbadState (h : segment prm S = .badState) :
      select prm S head free = some (.fault .badInvariant) :=
    select_eq_some_iff.mpr ⟨.badState h, Nat.zero_le _⟩
  refine ⟨hfaulted, hbadRate, hbadState, fun h => hfaulted (segment_eq_faulted_iff.mpr h),
    fun hf hbad => hbadState (segment_eq_badState_iff.mpr ⟨hf, hbad⟩),
    fun hf hlt happ hrate => hbadRate (segment_eq_badRate_iff.mpr ⟨hf, hlt, happ, hrate⟩),
    fun hseg => select_of_candidate (.trailer hseg), fun hreads => ⟨?_, ?_, ?_⟩⟩
  · rintro rfl
    exact select_eq_none_iff.mpr (.inl (candidate_eq_none_of_no_head hreads))
  · rintro x len rfl
    rw [select_eq_some_iff]
    split
    next hlen => exact ⟨.start hreads rfl (admissibleLength_iff.mpr hlen), by simp⟩
    next hlen =>
      have hbad : admissibleLength prm.cntW len = false := decide_eq_false hlen
      exact ⟨.refuse hreads rfl hbad, Nat.zero_le _⟩
  · rintro x rfl
    refine ⟨fun hseg => select_eq_some_iff.mpr ⟨.discard hseg rfl, Nat.zero_le _⟩, fun hseg => ?_⟩
    obtain ⟨m, hm⟩ := (idle_or_mapper_of_readsAnnotated hreads).resolve_left hseg
    exact ⟨m, hm, by rw [select_of_candidate (.map hm rfl), groupChips_mapInstr]⟩

/-- Settles O1: the branches of `step`. -/
theorem stepRunsSelectedInstruction : Obligations.StepRunsSelectedInstruction := by
  intro s
  refine ⟨fun c i => step_of_selectIn, fun c => step_of_selectIn_eq_none, fun op rest hc hops => ?_,
    fun hc hops hfault => ?_, fun hc hops hfault => ?_⟩
  · simp only [step, hc, hops]
  · simp [step, hc, hops, hfault]
  · simp [step, hc, hops, hfault]

/-- Settles O2: what the head byte decodes to is the candidate. -/
theorem stepRunsTheDecodedByte : Obligations.StepRunsTheDecodedByte := by
  intro s c item i hc hreads hhead hdec hfit
  refine step_of_selectIn hc (select_eq_some.mpr ⟨?_, hfit⟩)
  rw [hhead]
  exact candidate_of_decode hreads hdec

end Sys2Proof.Machine

/-! PROOFS. The micro-steps in one form: what a step writes to `S` and to the output is a function
of `S` and of the instruction alone (`effect`), and a step either advances the running call by
exactly that or, for want of capacity, lets the call return (R261, R263). -/

namespace Sys2Proof.Machine

/-! ## What a step writes -/

/-- What a micro-step leaves in `S` and adds to the call's event stream. -/
structure Effect where
  eng : Engine
  events : List Event

/-- START: a packet begins (R212) or is rejected (R213). -/
def selectorEffect (prm : Params) (S : Engine) (x : Byte) (len : Nat) : Effect :=
  if x.toNat ≤ 6 then
    ⟨{ rate := BitVec.ofNat 3 x.toNat, dCopy := 0, dCount := len - 1, dPhaseAcc := 0,
       dPsduSymbolCount := 0, dAppend := 0, fault := S.fault },
      [.tag (expectedChips prm (BitVec.ofNat 3 x.toNat) (len - 1))]⟩
  else
    ⟨{ rate := 0, dCopy := 0, dCount := 0, dPhaseAcc := 0, dPsduSymbolCount := 0,
       dAppend := if prm.malformedTrailer then 0 else 11, fault := S.fault }, [.rejectEv x 1]⟩

/-- The payload counter after a byte is mapped (R232). -/
def symbolsAfter (prm : Params) (S : Engine) : Nat :=
  if segment prm S = .payload then addSymbols prm S.dPsduSymbolCount (symbolsPerByte S.rate)
  else S.dPsduSymbolCount

/-- MAP with a mapper's answer (R230). -/
def mapEffect (prm : Params) (S : Engine) (mapped : Mapped) : Effect :=
  ⟨{ S with
      dPhaseAcc := mapped.acc
      dPsduSymbolCount := symbolsAfter prm S
      dCopy := S.dCopy + 1 }, mapped.chips.map .chip⟩

/-- The effect of every micro-step; host operations and REFUSE have none. -/
def effect (prm : Params) (S : Engine) : Instr → Effect
  | .trailer => ⟨{ S with dAppend := 11 }, trailerTable.map .chip⟩
  | .fault cause => ⟨{ S with fault := true }, [.fatalEv (fatalCode cause)]⟩
  | .discard _ | .refuse _ _ | .process _ _ | .forecast _ | .reset => ⟨S, []⟩
  | i =>
    match mapAnswer prm S i, encode i with
    | some mapped, _ => mapEffect prm S mapped
    | none, some ⟨x, some len⟩ => selectorEffect prm S x len
    | none, _ => ⟨S, []⟩

/-- The running call goes on after a micro-step. -/
def advance (s : State) (c : Call) (i : Instr) : State :=
  { s with
    eng := (effect s.params s.eng i).eng
    call := some
      { c with
        consumed := c.consumed + bytesTaken i
        produced := c.produced + groupChips i
        events := c.events ++ (effect s.params s.eng i).events } }

/-- The answer of a mapper to a byte (R170, R180, R185, R190). -/
def mapByte (prm : Params) (S : Engine) : Mapper → Byte → Mapped
  | .dbpsk, x => mapBitsDbpsk S.dPhaseAcc x
  | .dqpsk, x => mapDibitsDqpsk S.dPhaseAcc x
  | .cck55, x => mapHalvesCck55 prm S.dPhaseAcc x
  | .cck11, x => mapSymbolCck11 prm (parityOdd S) S.dPhaseAcc x

section
variable {prm : Params} {S : Engine} {head : Option InItem} {i : Instr} {x : Byte} {len : Nat}
  {m : Mapper} {mapped : Mapped} {s t : State} {c : Call}

@[simp] theorem advance_params : (advance s c i).params = s.params := rfl
@[simp] theorem advance_eng : (advance s c i).eng = (effect s.params s.eng i).eng := rfl
@[simp] theorem advance_input : (advance s c i).input = s.input := rfl
@[simp] theorem advance_rp : (advance s c i).rp = s.rp := rfl
@[simp] theorem advance_output : (advance s c i).output = s.output := rfl
@[simp] theorem advance_wp : (advance s c i).wp = s.wp := rfl
@[simp] theorem advance_ops : (advance s c i).ops = s.ops := rfl
@[simp] theorem advance_replies : (advance s c i).replies = s.replies := rfl
@[simp] theorem advance_call : (advance s c i).call = some
    { c with
      consumed := c.consumed + bytesTaken i
      produced := c.produced + groupChips i
      events := c.events ++ (effect s.params s.eng i).events } := rfl

/-! ## The effect of each kind of step -/

theorem effect_of_encode (hs : isStart i = true) (henc : encode i = some ⟨x, some len⟩) :
    effect prm S i = selectorEffect prm S x len := by
  cases i with
  | mapDbpsk | mapDqpsk | mapCck55 | mapCck11 | discard | trailer | fault | refuse | process
  | forecast | reset => cases hs
  | _ => cases henc; rfl

@[simp] theorem effect_decodeSelector :
    effect prm S (decodeSelector x len) = selectorEffect prm S x len :=
  effect_of_encode isStart_decodeSelector encode_decodeSelector

/-- Only MAPs have a mapper's answer. -/
theorem mapInstr_of_mapAnswer (h : mapAnswer prm S i = some mapped) :
    ∃ m x, i = mapInstr m x ∧ mapped = mapByte prm S m x := by
  cases i with
  | mapDbpsk x => exact ⟨.dbpsk, x, rfl, (Option.some.inj h).symm⟩
  | mapDqpsk x => exact ⟨.dqpsk, x, rfl, (Option.some.inj h).symm⟩
  | mapCck55 x => exact ⟨.cck55, x, rfl, (Option.some.inj h).symm⟩
  | mapCck11 x => exact ⟨.cck11, x, rfl, (Option.some.inj h).symm⟩
  | _ => cases h

@[simp] theorem effect_mapInstr :
    effect prm S (mapInstr m x) = mapEffect prm S (mapByte prm S m x) := by
  cases m <;> rfl

@[simp] theorem mapByte_chips_length : (mapByte prm S m x).chips.length = mapperChips m := by
  cases m <;> simp [mapByte, mapperChips]

/-- A START writes no chip. -/
theorem chipCount_selectorEffect : chipCount (selectorEffect prm S x len).events = 0 := by
  unfold selectorEffect
  split <;> rfl

/-- The events of a step hold exactly the chips of its group (R267). -/
theorem CandidateReading.chipCount_effect (h : CandidateReading prm S head i) :
    chipCount (effect prm S i).events = groupChips i := by
  cases h with
  | start => simp [chipCount_selectorEffect]
  | map => simp [mapEffect]
  | _ => rfl

/-! ## A micro-step advances the call or returns it -/

theorem StartEffect.eq_advance (hs : isStart i = true) (h : StartEffect s c i t) :
    t = advance s c i := by
  cases h with
  | started henc hx hlen =>
    rw [advance, effect_of_encode hs henc, selectorEffect, if_pos hx, bytesTaken_of_isStart hs,
      groupChips_of_isStart hs]
    rfl
  | rejected henc hx hlen =>
    rw [advance, effect_of_encode hs henc, selectorEffect, if_neg (by omega),
      bytesTaken_of_isStart hs, groupChips_of_isStart hs]
    rfl

theorem InPacketEffect.advance_or_returnCall (h : InPacketEffect s c i t) :
    (slotsNeeded s.params s.eng i ≤ freeSlots c ∧ t = advance s c i) ∨
      (freeSlots c < slotsNeeded s.params s.eng i ∧ t = returnCall s) := by
  cases h with
  | mapped hm hfit =>
    obtain ⟨m, x, rfl, rfl⟩ := mapInstr_of_mapAnswer hm
    refine .inl ⟨hfit, ?_⟩
    rw [advance, effect_mapInstr, bytesTaken_mapInstr, groupChips_mapInstr, byteMapped,
      mapByte_chips_length]
    rfl
  | discarded x =>
    refine .inl ⟨Nat.zero_le _, ?_⟩
    simp [advance, effect, consumeByte, bytesTaken, groupChips]
  | trailerSent hfit => exact .inl ⟨hfit, rfl⟩
  | faulted cause => exact .inl ⟨Nat.zero_le _, rfl⟩
  | returned hfull => exact .inr ⟨hfull, rfl⟩

/-- Everything a micro-step that answers a next state has done: it was the candidate of the running
call, which goes on by its effect, or has returned because its group did not fit. -/
theorem exec_next_cases (hh : isHostOp i = false) (h : exec i s = .next t) :
    ∃ c, s.call = some c ∧ CandidateReading s.params s.eng (headItem s c) i ∧
      ((groupChips i ≤ freeSlots c ∧ t = advance s c i) ∨
        (freeSlots c < groupChips i ∧ t = returnCall s)) := by
  cases hs : isStart i with
  | true =>
    obtain ⟨c, hc, hcand, heff⟩ := exec_next_of_isStart hs h
    exact ⟨c, hc, candidate_eq_some_iff.mp hcand,
      .inl ⟨by simp [groupChips_of_isStart hs], heff.eq_advance hs⟩⟩
  | false =>
    obtain ⟨c, hc, hcand, heff⟩ := exec_next_of_not_isStart hh hs h
    have hread := candidate_eq_some_iff.mp hcand
    refine ⟨c, hc, hread, ?_⟩
    rw [← hread.slotsNeeded_eq]
    exact heff.advance_or_returnCall

/-! ## A candidate answers -/

/-- A START is the operation of its selector's kind (R212, R213). -/
theorem exec_of_isStart (hs : isStart i = true) (henc : encode i = some ⟨x, some len⟩) :
    exec i s = if x.toNat ≤ 6 then startValid i (BitVec.ofNat 3 x.toNat) len s
      else startMalformed i x len s := by
  have hmal {w n : Nat} (high : BitVec w) (low : BitVec n) (h : 7 ≤ high.toNat <<< n) :
      ¬ (high ++ low).toNat ≤ 6 := by
    have := seven_le_toNat_append high low h
    omega
  cases i with
  | startMalformed08 low len => cases henc; rw [if_neg (hmal 0b00001#5 low (by decide))]; rfl
  | startMalformed10 low len => cases henc; rw [if_neg (hmal 0b0001#4 low (by decide))]; rfl
  | startMalformed20 low len => cases henc; rw [if_neg (hmal 0b001#3 low (by decide))]; rfl
  | startMalformed40 low len => cases henc; rw [if_neg (hmal 0b01#2 low (by decide))]; rfl
  | startMalformed80 low len => cases henc; rw [if_neg (hmal 0b1#1 low (by decide))]; rfl
  | mapDbpsk | mapDqpsk | mapCck55 | mapCck11 | discard | trailer | fault | refuse | process
  | forecast | reset => cases hs
  | _ => cases henc; rfl

theorem exec_mapInstr :
    exec (mapInstr m x) s = mapStep (mapInstr m x) (mapByte s.params s.eng m x) s := by
  cases m <;> rfl

/-- A MAP that is the candidate answers, whether its group fits or not. -/
theorem exists_mapStep_next (hc : s.call = some c) (hcand : candidateIn s c = some i) :
    ∃ t, mapStep i mapped s = .next t := by
  by_cases hfit : slotsNeeded s.params s.eng i ≤ freeSlots c
  · exact ⟨_, mapStep_next.mpr ⟨c, hc, hcand, .inl ⟨hfit, rfl⟩⟩⟩
  · exact ⟨_, mapStep_next.mpr ⟨c, hc, hcand, .inr ⟨Nat.not_le.mp hfit, rfl⟩⟩⟩

theorem exists_execTrailer_next (hc : s.call = some c) (hcand : candidateIn s c = some .trailer) :
    ∃ t, exec .trailer s = .next t := by
  by_cases hfit : slotsNeeded s.params s.eng .trailer ≤ freeSlots c
  · exact ⟨_, asCandidateIfFits_next.mpr ⟨c, hc, hcand, .inl ⟨hfit, rfl⟩⟩⟩
  · exact ⟨_, asCandidateIfFits_next.mpr ⟨c, hc, hcand, .inr ⟨Nat.not_le.mp hfit, rfl⟩⟩⟩

/-- Every candidate but REFUSE answers a next state. -/
theorem exists_exec_next (hc : s.call = some c)
    (hcand : CandidateReading s.params s.eng (headItem s c) i)
    (href : ∀ x len, i ≠ .refuse x len) : ∃ t, exec i s = .next t := by
  have hin : candidateIn s c = some i := candidate_eq_some_iff.mpr hcand
  cases hcand with
  | badRate | badState | discard => exact ⟨_, asCandidate_next.mpr ⟨c, hc, hin, rfl⟩⟩
  | trailer => exact exists_execTrailer_next hc hin
  | start hreads hhead hlen =>
    rw [exec_of_isStart isStart_decodeSelector encode_decodeSelector]
    split
    · exact ⟨_, startValid_next.mpr ⟨hlen, c, hc, hin, rfl⟩⟩
    · exact ⟨_, startMalformed_next.mpr ⟨hlen, c, hc, hin, rfl⟩⟩
  | refuse => exact absurd rfl (href _ _)
  | map =>
    rw [exec_mapInstr]
    exact exists_mapStep_next hc hin

/-- What a candidate does: its group fits and the call goes on, or the call returns. -/
theorem exec_of_candidate (hc : s.call = some c)
    (hcand : CandidateReading s.params s.eng (headItem s c) i)
    (href : ∀ x len, i ≠ .refuse x len) :
    exec i s = .next (if groupChips i ≤ freeSlots c then advance s c i else returnCall s) := by
  obtain ⟨t, h⟩ := exists_exec_next hc hcand href
  obtain ⟨c', hc', _, ⟨hfit, rfl⟩ | ⟨hfull, rfl⟩⟩ := exec_next_cases hcand.isHostOp_eq h
  all_goals obtain rfl : c' = c := Option.some.inj (hc'.symm.trans hc)
  · rw [h, if_pos hfit]
  · rw [h, if_neg (Nat.not_le.mpr hfull)]

theorem exec_of_fits (hc : s.call = some c)
    (hcand : CandidateReading s.params s.eng (headItem s c) i)
    (href : ∀ x len, i ≠ .refuse x len) (hfit : groupChips i ≤ freeSlots c) :
    exec i s = .next (advance s c i) := by
  rw [exec_of_candidate hc hcand href, if_pos hfit]

theorem isStart_ne_refuse (hs : isStart i = true) (x : Byte) (len : Nat) : i ≠ .refuse x len := by
  rintro rfl
  cases hs

/-- In a segment that reads bytes, the START of the head byte is the candidate (R262). -/
theorem candidateIn_start (hhead : headItem s c = some ⟨x, some len⟩)
    (hreads : readsAnnotated (segment s.params s.eng) = true)
    (hlen : admissibleLength s.params.cntW len = true) (hs : isStart i = true)
    (henc : encode i = some ⟨x, some len⟩) : candidateIn s c = some i := by
  rw [← decodeSelector_of_encode hs henc]
  exact candidate_eq_some_iff.mpr (.start hreads hhead hlen)

end

/-! ## The statements about single steps -/

/-- Settles O9: each row's START is the candidate. -/
theorem validSelectorStartsPacket : Obligations.ValidSelectorStartsPacket := by
  intro s c x len hc hhead hreads hpos hmax
  have hlen : admissibleLength s.params.cntW len = true := admissibleLength_iff.mpr ⟨hpos, hmax⟩
  have hstart (i : Instr) (r : Rate) (hs : isStart i = true)
      (henc : encode i = some ⟨x, some len⟩) :
      startValid i r len s = .next (packetStarted s c r len) :=
    startValid_next.mpr ⟨hlen, c, hc, candidateIn_start hhead hreads hlen hs henc, rfl⟩
  refine ⟨?_, ?_, ?_, ?_, ?_, ?_, ?_⟩ <;> rintro rfl <;> exact hstart _ _ rfl rfl

/-- Settles O10: each row's START is the candidate. -/
theorem malformedSelectorIsRejected : Obligations.MalformedSelectorIsRejected := by
  intro s c x len hc hhead hreads hpos hmax
  have hlen : admissibleLength s.params.cntW len = true := admissibleLength_iff.mpr ⟨hpos, hmax⟩
  have hstart (i : Instr) (hs : isStart i = true) (henc : encode i = some ⟨x, some len⟩) :
      startMalformed i x len s = .next (packetRejected s c x) :=
    startMalformed_next.mpr ⟨hlen, c, hc, candidateIn_start hhead hreads hlen hs henc, rfl⟩
  refine ⟨?_, ?_, ?_, ?_, ?_, ?_⟩
  · rintro rfl
    exact hstart _ rfl rfl
  all_goals
    rintro low rfl
    exact hstart _ rfl rfl

/-- Settles O11: REFUSE by its meaning, START by the test of its annotation, the step by the
candidate of the head byte. -/
theorem inadmissibleAnnotationIsRefused : Obligations.InadmissibleAnnotationIsRefused := by
  refine ⟨fun sel len s => rfl, fun i s hs hwf => ?_, fun s c x len hc hhead hreads hbad => ?_⟩
  · obtain ⟨x, len, henc, hlen⟩ := encode_of_isStart (cntW := s.params.cntW) hs
    have hno : ¬ admissibleLength s.params.cntW len = true := by rw [← hlen, hwf]; decide
    rw [exec_of_isStart hs henc, startValid, startMalformed, if_neg hno, if_neg hno, ite_self]
  · have hlen : admissibleLength s.params.cntW len = false :=
      admissibleLength_eq_false_iff.mpr hbad
    rw [step_of_candidate hc (.refuse hreads hhead hlen) (Nat.zero_le _)]
    rfl

/-- Settles O17: TRAILER is the candidate of its segment, and needs 11 slots. -/
theorem trailerIsWholeOrWaits : Obligations.TrailerIsWholeOrWaits := by
  refine ⟨fun prm S => segment_eq_trailer_iff, fun s c hc hseg => ?_⟩
  obtain ⟨hfault, hdone, _⟩ := segment_eq_trailer_iff.mp hseg
  have hexec : exec .trailer s =
      .next (if 11 ≤ c.cap - c.produced then advance s c .trailer else returnCall s) :=
    exec_of_candidate hc (.trailer hseg) nofun
  refine ⟨fun hfit => ⟨?_, segment_eq_idle_iff.mpr ⟨hfault, hdone, rfl⟩⟩, fun hfull => ⟨?_,
    returnCall_eng s, returnCall_output hc⟩⟩
  · rw [hexec, if_pos hfit]
    rfl
  · rw [hexec, if_neg (Nat.not_le.mpr hfull)]

/-- Settles O18: DISCARD is the candidate in IDLE. -/
theorem idleByteIsDiscarded : Obligations.IdleByteIsDiscarded := by
  intro s c x hc hhead hseg
  have hcand : CandidateReading s.params s.eng (headItem s c) (.discard x) := .discard hseg hhead
  refine ⟨?_, step_of_candidate hc hcand (Nat.zero_le _)⟩
  rw [exec_of_fits hc hcand nofun (Nat.zero_le _)]
  simp [advance, effect, bytesTaken, groupChips]

/-- Settles O19: FAULT is the candidate of the two fault segments. -/
theorem fatalFaultIsTaken : Obligations.FatalFaultIsTaken := by
  intro s c hc
  refine ⟨fun hseg => ⟨?_, step_of_candidate hc (.badRate hseg) (Nat.zero_le _)⟩,
    fun hseg => ⟨?_, step_of_candidate hc (.badState hseg) (Nat.zero_le _)⟩,
    segment_eq_faulted_iff.mpr rfl⟩
  · exact exec_of_fits hc (.badRate hseg) nofun (Nat.zero_le _)
  · exact exec_of_fits hc (.badState hseg) nofun (Nat.zero_le _)

/-- Settles O35: the candidate in TRAILER does not depend on the head byte. -/
theorem owedTrailerGoesFirst : Obligations.OwedTrailerGoesFirst := by
  intro s c hc hseg
  refine ⟨fun hfull => ?_, step_of_candidate hc (.trailer hseg)⟩
  exact step_of_selectIn_eq_none hc (select_eq_none_iff.mpr (.inr ⟨_, .trailer hseg, hfull⟩))

/-- Settles O36, by the two outcomes of a micro-step. -/
theorem eachStepWritesWholeGroups : Obligations.EachStepWritesWholeGroups := by
  intro i s t hh h
  obtain ⟨c, hc, hcand, ⟨hfit, rfl⟩ | ⟨hfull, rfl⟩⟩ := exec_next_cases hh h
  · exact ⟨c, hc, .inr ⟨_, _, hfit, rfl, rfl, rfl, rfl, hcand.chipCount_effect, rfl, rfl, rfl, rfl,
      rfl, rfl, rfl⟩⟩
  · exact ⟨c, hc, .inl ⟨rfl, hfull⟩⟩

/-! ## Progress (R351) -/

section
variable {prm : Params} {S : Engine} {head : Option InItem} {i : Instr} {s : State} {c : Call}
  {m : Mapper}

/-- No group is larger than 88 chips (R9). -/
theorem mapperChips_le (m : Mapper) : mapperChips m ≤ 88 := by
  cases m <;> decide

/-- Where bytes are read, the candidate takes a byte or is REFUSE. -/
theorem CandidateReading.bytesTaken_eq_one (h : CandidateReading prm S head i)
    (hreads : readsAnnotated (segment prm S) = true) (href : ∀ x len, i ≠ .refuse x len) :
    bytesTaken i = 1 := by
  cases h with
  | badRate hseg | badState hseg | trailer hseg => rw [hseg] at hreads; cases hreads
  | start => exact bytesTaken_decodeSelector
  | refuse => exact absurd rfl (href _ _)
  | discard => rfl
  | map => exact bytesTaken_mapInstr

/-- With 88 free slots in a mapping segment, or any in IDLE, the candidate of a byte fits. -/
theorem CandidateReading.fits (h : CandidateReading prm S head i) {free : Nat}
    (hroom : ((segment prm S = .preamble ∨ segment prm S = .header ∨ segment prm S = .payload) ∧
      88 ≤ free) ∨ segment prm S = .idle) : groupChips i ≤ free := by
  cases h with
  | trailer hseg => simp [hseg] at hroom
  | @map m _ hm =>
    rw [groupChips_mapInstr]
    obtain ⟨_, h88⟩ | hidle := hroom
    · exact (mapperChips_le m).trans h88
    · have hmap := segment_of_mapper hm
      simp [hidle] at hmap
  | start => simp
  | _ => exact Nat.zero_le _

/-- A selected step but REFUSE advances the call. -/
theorem step_of_select (hc : s.call = some c) (hsel : selectIn s c = some i)
    (href : ∀ x len, i ≠ .refuse x len) : step s = .next (advance s c i) := by
  obtain ⟨hcand, hfit⟩ := select_eq_some_iff.mp hsel
  rw [step_of_selectIn hc hsel, exec_of_fits hc hcand href hfit]

end

/-- Settles O34: the candidate fits and advances the call, or is REFUSE. -/
theorem ampleCapacityMakesProgress : Obligations.AmpleCapacityMakesProgress := by
  intro s c hc
  constructor
  · intro hseg h88
    have hsel : selectIn s c = some .trailer :=
      select_eq_some_iff.mpr ⟨.trailer hseg, le_trans (by decide) h88⟩
    exact ⟨hsel, _, _, step_of_select hc hsel nofun, rfl, rfl, rfl⟩
  · intro hroom hsome
    obtain ⟨item, hhead⟩ := Option.isSome_iff_exists.mp hsome
    have hreads : readsAnnotated (segment s.params s.eng) = true := by
      obtain ⟨hseg | hseg | hseg, _⟩ | hseg := hroom <;> rw [hseg] <;> rfl
    obtain ⟨i, hcand⟩ := exists_candidate_of_head (item := item) hreads
    rw [← hhead, candidate_eq_some_iff] at hcand
    have hsel : selectIn s c = some i := select_eq_some_iff.mpr ⟨hcand, hcand.fits hroom⟩
    by_cases href : ∀ x len, i ≠ .refuse x len
    · have h1 := hcand.bytesTaken_eq_one hreads href
      exact .inl ⟨i, _, _, hsel, h1, step_of_select hc hsel href, rfl, by rw [h1], rfl⟩
    · push Not at href
      obtain ⟨x, len, rfl⟩ := href
      obtain ⟨_, hhead', hbad⟩ := candidateReading_refuse_iff.mp hcand
      exact .inr ⟨x, len, hhead', admissibleLength_eq_false_iff.mp hbad, hsel⟩

end Sys2Proof.Machine

/-! PROOFS. The writers of `d_copy` (R35), the byte placed by `withFetchWord` (log 5), and the
host's operations RESET and the refused overlaps (R292, R340). -/

namespace Sys2Proof.Machine

section
variable {prm : Params} {S : Engine} {head : Option InItem} {i : Instr} {x : Byte} {len : Nat}
  {m : Mapper} {s t : State} {c : Call}

/-! ## The registers a step writes -/

@[simp] theorem selectorEffect_dCopy : (selectorEffect prm S x len).eng.dCopy = 0 := by
  unfold selectorEffect
  split <;> rfl

@[simp] theorem selectorEffect_fault : (selectorEffect prm S x len).eng.fault = S.fault := by
  unfold selectorEffect
  split <;> rfl

theorem mapInstr_of_isMap (h : isMap i = true) : ∃ m x, i = mapInstr m x := by
  cases i with
  | mapDbpsk x => exact ⟨.dbpsk, x, rfl⟩
  | mapDqpsk x => exact ⟨.dqpsk, x, rfl⟩
  | mapCck55 x => exact ⟨.cck55, x, rfl⟩
  | mapCck11 x => exact ⟨.cck11, x, rfl⟩
  | _ => cases h

theorem groupChips_le_of_isStart (hs : isStart i = true) (n : Nat) : groupChips i ≤ n := by
  simp [groupChips_of_isStart hs]

/-- A START that answers a next state has advanced the call: it needs no capacity. -/
theorem eq_advance_of_isStart (hs : isStart i = true) (h : exec i s = .next t) :
    ∃ c, s.call = some c ∧ t = advance s c i := by
  obtain ⟨c, hc, _, ⟨_, rfl⟩ | ⟨hfull, _⟩⟩ := exec_next_cases (isHostOp_of_isStart hs) h
  · exact ⟨c, hc, rfl⟩
  · exact absurd (groupChips_le_of_isStart hs _) (Nat.not_le.mpr hfull)

/-- A candidate that is neither START nor MAP writes `d_append` and `fault` at most. -/
theorem CandidateReading.effect_eng_of_not_start_of_not_map (h : CandidateReading prm S head i)
    (hs : isStart i = false) (hmap : isMap i = false) :
    (effect prm S i).eng =
      { S with dAppend := (effect prm S i).eng.dAppend, fault := (effect prm S i).eng.fault } := by
  cases h with
  | start => rw [isStart_decodeSelector] at hs; cases hs
  | map => rw [isMap_mapInstr] at hmap; cases hmap
  | _ => rfl

/-- In the mapping segments `d_copy` decides which one it is (R50). -/
theorem segment_of_mapper_eq_ite (hm : mapper prm S = some m) :
    segment prm S =
      if S.dCopy < preambleBytes prm S.rate then .preamble
      else if shortPreamble S.rate = true ∧ S.dCopy < 15 then .header
      else .payload := by
  obtain hseg | hseg | hseg := segment_of_mapper hm
  · obtain ⟨_, _, hpre⟩ := registers_of_preamble hseg
    rw [hseg, if_pos hpre]
  · obtain ⟨_, hshort, hpre, hpay⟩ := registers_of_header hseg
    rw [payloadStart_of_shortPreamble hshort] at hpay
    rw [hseg, if_neg (Nat.not_lt.mpr hpre), if_pos ⟨hshort, hpay⟩]
  · obtain ⟨_, _, hpay⟩ := registers_of_payload hseg
    have hpre : ¬ S.dCopy < preambleBytes prm S.rate :=
      Nat.not_lt.mpr (preambleBytes_le_payloadStart.trans hpay)
    have hhdr : ¬ (shortPreamble S.rate = true ∧ S.dCopy < 15) := by
      rintro ⟨hshort, hlt⟩
      rw [payloadStart_of_shortPreamble hshort] at hpay
      omega
    rw [hseg, if_neg hpre, if_neg hhdr]

end

/-- Settles O37, by the two outcomes of a micro-step and what each kind of step writes. -/
theorem copyCounterWriters : Obligations.CopyCounterWriters := by
  refine ⟨fun i s t hh h => ⟨fun hs => ?_, fun hmap => ?_, fun hs hmap => ?_, ?_⟩,
    fun prm S hsome => ?_⟩
  · obtain ⟨c, _, rfl⟩ := eq_advance_of_isStart hs h
    obtain ⟨x, len, henc, _⟩ := encode_of_isStart (cntW := 0) hs
    simp [effect_of_encode hs henc]
  · obtain ⟨c, hc, _, ⟨hfit, rfl⟩ | hfull⟩ := exec_next_cases hh h
    · obtain ⟨m, x, rfl⟩ := mapInstr_of_isMap hmap
      exact ⟨c, hc, .inl ⟨hfit, by simp [mapEffect], nofun⟩⟩
    · exact ⟨c, hc, .inr hfull⟩
  · obtain ⟨c, _, hcand, ⟨_, rfl⟩ | ⟨_, rfl⟩⟩ := exec_next_cases hh h
    · rw [advance_eng, hcand.effect_eng_of_not_start_of_not_map hs hmap]
    · rw [returnCall_eng]
  · rintro rfl
    rw [returnCall_eng]
  · obtain ⟨m, hm⟩ := Option.isSome_iff_exists.mp hsome
    exact segment_of_mapper_eq_ite hm

/-- Settles O7: the placed byte is a selector with an admissible annotation, at the head of a call
in IDLE. -/
theorem placedTableWordRuns : Obligations.PlacedTableWordRuns := by
  intro w _
  have hlen : admissibleLength defaultParams.cntW 1 = true := rfl
  have hdec : decodeTableWord 8 w = some (decodeSelector (BitVec.ofNat 8 w) 1) := by
    simp only [decodeTableWord, decode_annotated (seg := .idle) rfl hlen, if_true]
  have hcand : CandidateReading (State.reset.withFetchWord 8 w).params
      (State.reset.withFetchWord 8 w).eng
      (headItem (State.reset.withFetchWord 8 w) ⟨1, 0, 0, 0, []⟩)
      (decodeSelector (BitVec.ofNat 8 w) 1) := .start rfl rfl hlen
  have hstart : isStart (decodeSelector (BitVec.ofNat 8 w) 1) = true := isStart_decodeSelector
  have hfit := groupChips_le_of_isStart hstart (freeSlots ⟨1, 0, 0, 0, []⟩)
  exact ⟨_, _, hdec, step_of_candidate rfl hcand hfit,
    exec_of_fits rfl hcand (isStart_ne_refuse hstart) hfit⟩

/-- Settles O26: the reset values put the engine in IDLE with rate 0. -/
theorem resetLeavesIdle : Obligations.ResetLeavesIdle := by
  intro s hc
  have hexec : exec .reset s = .next (resetRegisters s) := by simp only [exec, execReset, hc]
  refine ⟨hexec, segment_eq_idle_iff.mpr ⟨rfl, rfl, rfl⟩, fun n => ?_⟩
  have hrate : (0 : Rate) ≠ 7 := by decide
  rw [forecastBytes_of_ne_seven hrate, forecastRatio]
  split <;> rfl

/-- Settles O27: both operations look whether a call is running. -/
theorem overlapIsRefused : Obligations.OverlapIsRefused := by
  intro s c hc
  refine ⟨fun n cap => ?_, ?_⟩
  · simp only [exec, execProcess, hc]
  · simp only [exec, execReset, hc]

end Sys2Proof.Machine

/-! PROOFS. The four mappers in closed form (41_chip_mappers.md): the loops of R170 to R190 answer
the chips and phases that Sys2Proof/Safety.lean writes from the rules a second time. -/

namespace Sys2Proof.Machine

section
variable {prm : Params} {S : Engine} {x : Byte} {m : Mapper} {s : State} {c : Call}

/-! ## Spreading (R145, R170, R180) -/

theorem spread_eq_map_range (k : Quadrant) :
    spread k = (List.range 11).map fun i => k + barkerAt i := rfl

/-- The loop of R170 and R180, chip by chip: chip `t` belongs to symbol `t / 11`, whose phase is the
accumulator increased by the increments up to that symbol's. -/
theorem spreadSymbols_chips (acc : Quadrant) (incs : List Quadrant) :
    (spreadSymbols acc incs).chips = (List.range (11 * incs.length)).map fun t =>
      (incs.take (t / 11 + 1)).foldl qadd acc + barkerAt (t % 11) := by
  induction incs generalizing acc with
  | nil => rfl
  | cons inc incs ih =>
    have hfirst : spread (qadd acc inc) = (List.range 11).map fun t =>
        ((inc :: incs).take (t / 11 + 1)).foldl qadd acc + barkerAt (t % 11) := by
      rw [spread_eq_map_range]
      refine List.map_congr_left fun t ht => ?_
      have hlt : t < 11 := List.mem_range.mp ht
      rw [Nat.div_eq_of_lt hlt, Nat.mod_eq_of_lt hlt]
      rfl
    have hrest (t : Nat) : (11 + t) / 11 = t / 11 + 1 ∧ (11 + t) % 11 = t % 11 := by omega
    rw [List.length_cons, Nat.mul_succ, Nat.add_comm, List.range_add, List.map_append, ← hfirst,
      List.map_map, spreadSymbols, ih]
    refine congrArg (spread (qadd acc inc) ++ ·) (List.map_congr_left fun t _ => ?_)
    obtain ⟨hdiv, hmod⟩ := hrest t
    simp only [Function.comp_apply, hdiv, hmod, List.take_succ_cons, List.foldl_cons]

/-- The chips and the accumulator of a loop whose increments are `f 0, …, f (n-1)`, where `phase`
names the accumulator after each symbol. -/
theorem spreadSymbols_map_range {acc : Quadrant} {n : Nat} {f : Nat → Quadrant}
    {phase : Nat → Quadrant}
    (hphase : ∀ j, ((List.range (j + 1)).map f).foldl qadd acc = phase j) :
    spreadSymbols acc ((List.range (n + 1)).map f) =
      ⟨(List.range (11 * (n + 1))).map fun t => phase (t / 11) + barkerAt (t % 11), phase n⟩ := by
  have hacc : (spreadSymbols acc ((List.range (n + 1)).map f)).acc = phase n := by
    rw [spreadSymbols_acc, hphase]
  have hchips : (spreadSymbols acc ((List.range (n + 1)).map f)).chips =
      (List.range (11 * (n + 1))).map fun t => phase (t / 11) + barkerAt (t % 11) := by
    rw [spreadSymbols_chips, List.length_map, List.length_range]
    refine List.map_congr_left fun t ht => ?_
    have hlt : t / 11 + 1 ≤ n + 1 := by
      have := List.mem_range.mp ht
      omega
    rw [← List.map_take, List.take_range, Nat.min_eq_left hlt, hphase]
  exact congrArg₂ Mapped.mk hchips hacc

/-! ## DBPSK and DQPSK (R104, R105) -/

theorem foldl_dbpskInc (acc : Quadrant) (x : Byte) (n : Nat) :
    ((List.range n).map fun i => dbpskInc (bitAt x i)).foldl qadd acc =
      acc + BitVec.ofNat 2 (2 * (List.range n).countP fun i => x.getLsbD i) := by
  induction n with
  | zero => simp
  | succ n ih =>
    rw [List.range_succ, List.map_append, List.foldl_append, ih, List.countP_append, Nat.mul_add,
      BitVec.ofNat_add, ← BitVec.add_assoc]
    cases hbit : x.getLsbD n <;> simp [qadd, dbpskInc, bitAt, hbit]

theorem mapBitsDbpsk_eq (acc : Quadrant) (x : Byte) :
    mapBitsDbpsk acc x = ⟨dbpskChips acc x, dbpskPhase acc x 7⟩ :=
  spreadSymbols_map_range fun j => foldl_dbpskInc acc x (j + 1)

/-- Two bits of a byte, looked up in a table. -/
theorem quadLookup_eq_cckTurn {t : QuadTable} {d : BitVec 2} {lo : Nat}
    (hhigh : d.getLsbD 1 = x.getLsbD (lo + 1)) (hlow : d.getLsbD 0 = x.getLsbD lo) :
    quadLookup t d = cckTurn t x lo := by
  have hcases : ∀ d : BitVec 2, d = 0 ∨ d = 1 ∨ d = 2 ∨ d = 3 := by decide
  rw [cckTurn, ← hhigh, ← hlow]
  obtain rfl | rfl | rfl | rfl := hcases d <;> rfl

theorem quadLookup_dibitAt (t : QuadTable) (x : Byte) (i : Nat) :
    quadLookup t (dibitAt x i) = cckTurn t x (2 * i) :=
  quadLookup_eq_cckTurn (by simp [dibitAt]) (by simp [dibitAt])

/-- A dibit's turns are its entry of the increment table (R43, R105). -/
theorem ofNat_dibitTurns (x : Byte) (i : Nat) :
    BitVec.ofNat 2 (dibitTurns x i) = quadLookup dqpskTable (dibitAt x i) := by
  rw [quadLookup_dibitAt, dibitTurns, cckTurn]
  cases x.getLsbD (2 * i + 1) <;> cases x.getLsbD (2 * i) <;> rfl

theorem foldl_dibitTurns (acc : Quadrant) (x : Byte) (n : Nat) :
    ((List.range n).map fun i => quadLookup dqpskTable (dibitAt x i)).foldl qadd acc =
      acc + BitVec.ofNat 2 ((List.range n).map (dibitTurns x)).sum := by
  induction n with
  | zero => simp
  | succ n ih =>
    rw [List.range_succ, List.map_append, List.foldl_append, ih, List.map_append, List.sum_append,
      BitVec.ofNat_add, ← BitVec.add_assoc]
    simp [qadd, ofNat_dibitTurns]

theorem mapDibitsDqpsk_eq (acc : Quadrant) (x : Byte) :
    mapDibitsDqpsk acc x = ⟨dqpskChips acc x, dqpskPhase acc x 3⟩ :=
  spreadSymbols_map_range fun j => foldl_dibitTurns acc x (j + 1)

/-! ## CCK (R106, R107, R151) -/

/-- The generator and the lane table agree. -/
theorem cckSymbol_eq_cckByLanes (p1 p2 p3 p4 : Quadrant) :
    cckSymbol p1 p2 p3 p4 = cckByLanes p1 p2 p3 p4 := by
  simp [cckSymbol, cckByLanes, cckLanes, qadd, BitVec.add_assoc]

/-- One half of a 5.5 Mbps byte, by the bits of the byte. -/
theorem mapHalfCck55_nibbleAt (odd : Bool) (acc : Quadrant) (x : Byte) (h : Nat) :
    mapHalfCck55 prm odd acc (nibbleAt x h) =
      let acc' := acc + cckTurn (if odd then prm.cckIncOdd else prm.cckIncEven) x (4 * h)
      ⟨cckByLanes acc' (if x.getLsbD (4 * h + 2) then 3 else 1) 0
        (if x.getLsbD (4 * h + 3) then 2 else 0), acc'⟩ := by
  have hturn : cckInc prm odd ((nibbleAt x h).extractLsb' 0 2) =
      cckTurn (if odd then prm.cckIncOdd else prm.cckIncEven) x (4 * h) :=
    quadLookup_eq_cckTurn (by simp [nibbleAt]) (by simp [nibbleAt])
  simp only [mapHalfCck55, hturn, cckSymbol_eq_cckByLanes]
  simp [qadd, nibbleAt, p2Offset55, p4Offset55]

theorem mapHalvesCck55_eq (acc : Quadrant) (x : Byte) :
    mapHalvesCck55 prm acc x = ⟨cck55Chips prm acc x, cck55End prm acc x⟩ := by
  simp [mapHalvesCck55, mapHalfCck55_nibbleAt, cck55Chips, cck55End, cck55Mid]

theorem mapSymbolCck11_eq (odd : Bool) (acc : Quadrant) (x : Byte) :
    mapSymbolCck11 prm odd acc x = ⟨cck11Chips prm odd acc x, cck11End prm odd acc x⟩ := by
  simp [mapSymbolCck11, cckInc, quadLookup_dibitAt, cckSymbol_eq_cckByLanes, qadd, cck11Chips,
    cck11End, qpskOffset, qpsk11Table]

theorem parityOdd_eq (S : Engine) : parityOdd S = (S.dPsduSymbolCount % 2 == 1) := by
  simp [parityOdd, Nat.testBit_zero, beq_eq_decide]

/-! ## MAP with room (R230) -/

/-- In PAYLOAD a byte has its mapper's number of symbols (R44, R232). -/
theorem symbolsPerByte_of_mapper (hm : mapper prm S = some m) (hpay : segment prm S = .payload) :
    symbolsPerByte S.rate = mapperSymbols m :=
  symbolsPerByte_of_payloadMapper ((mapper_of_payload hpay).symm.trans hm)

/-- With room, the MAP of the segment's mapper maps the head byte. -/
theorem exec_mapInstr_of_fits (hc : s.call = some c) (hhead : headItem s c = some ⟨x, none⟩)
    (hm : mapper s.params s.eng = some m) (hfit : mapperChips m ≤ c.cap - c.produced) :
    exec (mapInstr m x) s = .next (byteMapped s c (mapByte s.params s.eng m x).chips
      (mapByte s.params s.eng m x).acc (mapperSymbols m)) := by
  have hcand : CandidateReading s.params s.eng (headItem s c) (mapInstr m x) := .map hm hhead
  have hslots : slotsNeeded s.params s.eng (mapInstr m x) ≤ freeSlots c := by
    rw [hcand.slotsNeeded_eq, groupChips_mapInstr]
    exact hfit
  have hsym : byteMapped s c (mapByte s.params s.eng m x).chips
        (mapByte s.params s.eng m x).acc (symbolsPerByte s.eng.rate) =
      byteMapped s c (mapByte s.params s.eng m x).chips
        (mapByte s.params s.eng m x).acc (mapperSymbols m) := by
    by_cases hpay : segment s.params s.eng = .payload
    · rw [symbolsPerByte_of_mapper hm hpay]
    · simp only [byteMapped, if_neg hpay]
  rw [exec_mapInstr, ← hsym]
  exact mapStep_next.mpr ⟨c, hc, candidate_eq_some_iff.mpr hcand, .inl ⟨hslots, rfl⟩⟩

end

/-- Settles O12: the mapper of PREAMBLE and of rate 0, in closed form. -/
theorem dbpskMapsEightBits : Obligations.DbpskMapsEightBits := by
  intro s c x hc hhead hseg hfit
  have hm : mapper s.params s.eng = some .dbpsk := by
    obtain hpre | ⟨hpay, hrate⟩ := hseg
    · exact mapper_of_preamble hpre
    · rw [mapper_of_payload hpay, hrate]; rfl
  have hexec := exec_mapInstr_of_fits hc hhead hm hfit
  rw [mapByte, mapBitsDbpsk_eq] at hexec
  exact hexec

/-- Settles O13: the mapper of HEADER and of rates 1 and 4, in closed form. -/
theorem dqpskMapsFourDibits : Obligations.DqpskMapsFourDibits := by
  intro s c x hc hhead hseg hfit
  have hm : mapper s.params s.eng = some .dqpsk := by
    obtain hhdr | ⟨hpay, hrate | hrate⟩ := hseg
    · exact mapper_of_header hhdr
    all_goals rw [mapper_of_payload hpay, hrate]; rfl
  have hexec := exec_mapInstr_of_fits hc hhead hm hfit
  rw [mapByte, mapDibitsDqpsk_eq] at hexec
  exact hexec

/-- Settles O14: the mapper of rates 2 and 5, in closed form. -/
theorem cck55MapsTwoHalves : Obligations.Cck55MapsTwoHalves := by
  rintro s c x hc hhead ⟨hpay, hrate⟩ hfit
  have hm : mapper s.params s.eng = some .cck55 := by
    obtain hrate | hrate := hrate
    all_goals rw [mapper_of_payload hpay, hrate]; rfl
  have hexec := exec_mapInstr_of_fits hc hhead hm hfit
  rw [mapByte, mapHalvesCck55_eq] at hexec
  exact hexec

/-- Settles O15: the mapper of rates 3 and 6, in closed form. -/
theorem cck11MapsOneSymbol : Obligations.Cck11MapsOneSymbol := by
  rintro s c x hc hhead ⟨hpay, hrate⟩ hfit
  have hm : mapper s.params s.eng = some .cck11 := by
    obtain hrate | hrate := hrate
    all_goals rw [mapper_of_payload hpay, hrate]; rfl
  have hexec := exec_mapInstr_of_fits hc hhead hm hfit
  rw [mapByte, mapSymbolCck11_eq, parityOdd_eq] at hexec
  exact hexec

/-- The counter holds the exact sum where that fits (R232). -/
theorem addSymbols_of_lt {prm : Params} {count n : Nat} (h : count + n < 2 ^ prm.symW) :
    addSymbols prm count n = count + n :=
  if_pos h

/-- The counter keeps its width, whatever is added (log 15). -/
theorem addSymbols_lt (prm : Params) (count n : Nat) : addSymbols prm count n < 2 ^ prm.symW := by
  unfold addSymbols
  split
  next h => exact h
  next => exact Nat.mod_lt _ (Nat.two_pow_pos _)

/-- Settles O16: both branches of `addSymbols`. -/
theorem symbolCounterAddsInWidth : Obligations.SymbolCounterAddsInWidth :=
  fun prm count n => ⟨rfl, addSymbols_of_lt, addSymbols_lt prm count n⟩

/-- Settles O40: the four chip codes, and each chip of the four spread symbols. -/
theorem spreadTimesBarker : Obligations.SpreadTimesBarker := by
  refine ⟨⟨rfl, rfl, rfl, rfl⟩, fun k => ?_⟩
  revert k
  decide

/-- Settles O41: the lane table, whose last lane is `p1` alone. -/
theorem cckSymbolFollowsLanes : Obligations.CckSymbolFollowsLanes :=
  fun p1 p2 p3 p4 => ⟨cckSymbol_eq_cckByLanes p1 p2 p3 p4, rfl⟩

end Sys2Proof.Machine

/-! PROOFS. The loop of a call (43_buffer_controller.md section 1, R261 to R266): a call is a run
of micro-steps from the state it is presented in to one where none is selected, and R265's bound
is enough for it. -/

namespace Sys2Proof.Machine

section
variable {prm : Params} {S : Engine} {head : Option InItem} {i : Instr} {x : Byte} {len n cap : Nat}
  {m : Mapper} {s t u : State} {c : Call}

/-! ## Runs of micro-steps -/

/-- One selected step of the running call that is not REFUSE. -/
def MicroStep (s t : State) : Prop :=
  ∃ c i, s.call = some c ∧ CandidateReading s.params s.eng (headItem s c) i ∧
    groupChips i ≤ freeSlots c ∧ (∀ x len, i ≠ .refuse x len) ∧ t = advance s c i

/-- A run of micro-steps inside one call. -/
abbrev MicroRun : State → State → Prop := Relation.ReflTransGen MicroStep

/-- What every micro-step keeps, every run keeps. -/
theorem MicroRun.keeps {P : State → Prop} (kept : ∀ s t, P s → MicroStep s t → P t) (hp : P s)
    (hrun : MicroRun s t) : P t := by
  induction hrun with
  | refl => exact hp
  | tail _ hstep ih => exact kept _ _ ih hstep

/-- A run writes nothing but `S` and the call. -/
theorem MicroRun.frame (hrun : MicroRun s t) : t = { s with eng := t.eng, call := t.call } := by
  refine hrun.keeps (P := fun t => t = { s with eng := t.eng, call := t.call }) ?_ rfl
  rintro t _ ht ⟨c, i, _, _, _, _, rfl⟩
  simp only [advance]
  rw [ht]

theorem MicroRun.params_eq (hrun : MicroRun s t) : t.params = s.params := by
  rw [hrun.frame]

theorem MicroRun.input_eq (hrun : MicroRun s t) : t.input = s.input := by
  rw [hrun.frame]

/-- The head byte is the next byte of the window (R261). -/
theorem headItem_eq_some_iff {item : InItem} :
    headItem s c = some item ↔ c.consumed < c.window ∧ s.input[c.consumed]? = some item := by
  simp [headItem, ite_eq_iff]

/-- A step that takes a byte had a head byte. -/
theorem CandidateReading.head_or_bytesTaken_eq_zero (h : CandidateReading prm S head i) :
    (∃ item, head = some item) ∨ bytesTaken i = 0 := by
  cases h with
  | badRate | badState | trailer => exact .inr rfl
  | start _ hhead | refuse _ hhead | discard _ hhead | map _ hhead => exact .inl ⟨_, hhead⟩

theorem bytesTaken_le_one (i : Instr) : bytesTaken i ≤ 1 := by
  unfold bytesTaken
  split <;> decide

/-- A step takes no byte past the window. -/
theorem CandidateReading.consumed_le (h : CandidateReading prm S (headItem s c) i)
    (hk : c.consumed ≤ c.window) : c.consumed + bytesTaken i ≤ c.window := by
  obtain ⟨item, hhead⟩ | hzero := h.head_or_bytesTaken_eq_zero
  · obtain ⟨hlt, _⟩ := headItem_eq_some_iff.mp hhead
    have := bytesTaken_le_one i
    omega
  · omega

/-- The loop variables stay in their bounds (R266). -/
theorem MicroStep.callInv (hstep : MicroStep s t)
    (hinv : ∀ c, s.call = some c → CallInv s.input.length c) :
    ∀ c, t.call = some c → CallInv t.input.length c := by
  obtain ⟨c, i, hc, hcand, hfit, _, rfl⟩ := hstep
  rintro c' hc'
  obtain ⟨hk, hw, hp, hchips⟩ := hinv c hc
  obtain rfl := Option.some.inj hc'
  refine ⟨hcand.consumed_le hk, hw, ?_, ?_⟩
  · simp only [freeSlots] at hfit
    change c.produced + groupChips i ≤ c.cap
    omega
  · change chipCount (c.events ++ (effect s.params s.eng i).events) = c.produced + groupChips i
    rw [chipCount_append, hchips, hcand.chipCount_effect]

theorem callInv_openCall (c : Call) (hc : (openCall n cap s).call = some c) :
    CallInv (openCall n cap s).input.length c := by
  obtain rfl := Option.some.inj hc
  exact ⟨Nat.zero_le _, Nat.min_le_right _ _, Nat.zero_le _, rfl⟩

/-- A run keeps a call running, with its window and its capacity. -/
theorem MicroRun.call_eq (hrun : MicroRun s t) (hc : s.call = some c) :
    ∃ c', t.call = some c' ∧ c'.window = c.window ∧ c'.cap = c.cap := by
  refine hrun.keeps (P := fun t => ∃ c', t.call = some c' ∧ c'.window = c.window ∧ c'.cap = c.cap)
    ?_ ⟨c, hc, rfl, rfl⟩
  rintro t _ ⟨c', hc', hw, hcap⟩ ⟨c'', i, hc'', _, _, _, rfl⟩
  obtain rfl : c' = c'' := Option.some.inj (hc'.symm.trans hc'')
  exact ⟨_, rfl, hw, hcap⟩

/-! ## R265's bound -/

/-- The steps `S` has pending that take no byte: one in TRAILER, BADRATE and BADSTATE. -/
def stepsOwed (prm : Params) (S : Engine) : Nat :=
  match segment prm S with
  | .trailer | .badRate | .badState => 1
  | .faulted | .idle | .preamble | .header | .payload => 0

/-- A bound on the steps the rest of a call can take: two for each byte left, START and then its
TRAILER, and the one pending (R265). -/
def stepsLeft (s : State) (c : Call) : Nat :=
  2 * (c.window - c.consumed) + stepsOwed s.params s.eng

theorem stepsOwed_le_one (prm : Params) (S : Engine) : stepsOwed prm S ≤ 1 := by
  unfold stepsOwed
  split <;> decide

/-- A step that takes no byte pays the pending one. -/
theorem CandidateReading.stepsOwed_effect (h : CandidateReading prm S head i)
    (hzero : bytesTaken i = 0) (href : ∀ x len, i ≠ .refuse x len) :
    stepsOwed prm (effect prm S i).eng + 1 = stepsOwed prm S := by
  cases h with
  | badRate hseg | badState hseg =>
    have hfaulted : segment prm { S with fault := true } = .faulted :=
      segment_eq_faulted_iff.mpr rfl
    simp only [stepsOwed, effect, hseg, hfaulted]
  | trailer hseg =>
    obtain ⟨hfault, hdone, _⟩ := segment_eq_trailer_iff.mp hseg
    have hidle : segment prm { S with dAppend := 11 } = .idle :=
      segment_eq_idle_iff.mpr ⟨hfault, hdone, rfl⟩
    simp only [stepsOwed, effect, hseg, hidle]
  | start => simp at hzero
  | refuse => exact absurd rfl (href _ _)
  | discard => cases hzero
  | map => simp at hzero

/-- Every step lowers the bound. -/
theorem stepsLeft_advance (hcand : CandidateReading s.params s.eng (headItem s c) i)
    (href : ∀ x len, i ≠ .refuse x len) {c' : Call} (hc' : (advance s c i).call = some c') :
    stepsLeft (advance s c i) c' < stepsLeft s c := by
  obtain rfl := Option.some.inj hc'
  simp only [stepsLeft, advance_params, advance_eng]
  have hbytes := bytesTaken_le_one i
  obtain hzero | hone : bytesTaken i = 0 ∨ bytesTaken i = 1 := by omega
  · have := hcand.stepsOwed_effect hzero href
    omega
  · obtain ⟨item, hhead⟩ | hzero := hcand.head_or_bytesTaken_eq_zero
    · obtain ⟨hlt, _⟩ := headItem_eq_some_iff.mp hhead
      have := stepsOwed_le_one s.params (effect s.params s.eng i).eng
      omega
    · omega

/-- At the bound no step is enabled: no byte is left and none is pending that needs no byte. -/
theorem selectIn_eq_none_of_stepsLeft (h : stepsLeft s c = 0) : selectIn s c = none := by
  obtain ⟨hwindow, howed⟩ : c.window - c.consumed = 0 ∧ stepsOwed s.params s.eng = 0 := by
    unfold stepsLeft at h
    omega
  have hhead : headItem s c = none := if_neg (by omega)
  refine select_eq_none_iff.mpr (.inl (candidate_eq_none_iff.mpr ?_))
  rw [hhead]
  unfold stepsOwed at howed
  cases hseg : segment s.params s.eng <;> simp [hseg, readsAnnotated] at howed ⊢

/-! ## The outcome of a call -/

/-- How a call presented in `s` ends: it returns where no step is selected, or the run is refused at
an inadmissible annotation (R214, R261). -/
inductive CallOutcome (s : State) : Host.Outcome State Fault Refusal → Prop
  | returned {t : State} {c : Call} (hrun : MicroRun s t) (hc : t.call = some c)
      (hsel : selectIn t c = none) : CallOutcome s (.next (returnCall t))
  | refused {t : State} {c : Call} {x : Byte} {len : Nat} (hrun : MicroRun s t)
      (hc : t.call = some c) (hsel : selectIn t c = some (.refuse x len)) :
      CallOutcome s (.refused .inadmissibleLength)

/-- The turns of the loop: a selected step that is not REFUSE goes on with the advanced call. -/
theorem runCall_of_select (fuel : Nat) (hc : s.call = some c) (hsel : selectIn s c = some i)
    (href : ∀ x len, i ≠ .refuse x len) : runCall (fuel + 1) s = runCall fuel (advance s c i) := by
  obtain ⟨hcand, hfit⟩ := select_eq_some_iff.mp hsel
  simp only [runCall_succ fuel hc, hsel, performStep_eq_exec hcand.isHostOp_eq,
    exec_of_fits hc hcand href hfit]

theorem runCall_of_select_refuse (fuel : Nat) (hc : s.call = some c)
    (hsel : selectIn s c = some (.refuse x len)) :
    runCall (fuel + 1) s = .refused .inadmissibleLength := by
  simp only [runCall_succ fuel hc, hsel]
  rfl

theorem runCall_of_select_none (fuel : Nat) (hc : s.call = some c) (hsel : selectIn s c = none) :
    runCall fuel s = .next (returnCall s) := by
  cases fuel with
  | zero => rfl
  | succ fuel => simp only [runCall_succ fuel hc, hsel]

theorem microStep_of_select (hc : s.call = some c) (hsel : selectIn s c = some i)
    (href : ∀ x len, i ≠ .refuse x len) : MicroStep s (advance s c i) := by
  obtain ⟨hcand, hfit⟩ := select_eq_some_iff.mp hsel
  exact ⟨c, i, hc, hcand, hfit, href, rfl⟩

/-- What is selected in a running call: nothing, REFUSE, or a step that advances it and lowers the
bound. -/
theorem selectIn_cases (s : State) (c : Call) :
    selectIn s c = none ∨ (∃ x len, selectIn s c = some (.refuse x len)) ∨
      ∃ i, selectIn s c = some i ∧ (∀ x len, i ≠ .refuse x len) ∧
        ∀ c', (advance s c i).call = some c' →
          stepsLeft (advance s c i) c' < stepsLeft s c := by
  cases hsel : selectIn s c with
  | none => exact .inl rfl
  | some i =>
    right
    by_cases href : ∀ x len, i ≠ .refuse x len
    · obtain ⟨hcand, _⟩ := select_eq_some_iff.mp hsel
      exact .inr ⟨i, rfl, href, fun c' hc' => stepsLeft_advance hcand href hc'⟩
    · push Not at href
      obtain ⟨x, len, rfl⟩ := href
      exact .inl ⟨x, len, rfl⟩

/-- With the bound as fuel the loop runs to its end. -/
theorem callOutcome_runCall (fuel : Nat) (hc : s.call = some c) (hfuel : stepsLeft s c ≤ fuel) :
    CallOutcome s (runCall fuel s) := by
  induction fuel generalizing s c with
  | zero => exact .returned .refl hc (selectIn_eq_none_of_stepsLeft (Nat.le_zero.mp hfuel))
  | succ fuel ih =>
    obtain hsel | ⟨x, len, hsel⟩ | ⟨i, hsel, href, hless⟩ := selectIn_cases s c
    · rw [runCall_of_select_none _ hc hsel]
      exact .returned .refl hc hsel
    · rw [runCall_of_select_refuse fuel hc hsel]
      exact .refused .refl hc hsel
    · rw [runCall_of_select fuel hc hsel href]
      have hstep := microStep_of_select hc hsel href
      have hlt := hless _ rfl
      have hout := ih (s := advance s c i) rfl (by omega)
      generalize runCall fuel (advance s c i) = out at hout ⊢
      cases hout with
      | returned hrun hc' hsel' => exact .returned (hrun.head hstep) hc' hsel'
      | refused hrun hc' hsel' => exact .refused (hrun.head hstep) hc' hsel'

/-- The fuel of a call covers its bound. -/
theorem stepsLeft_openCall (hc : (openCall n cap s).call = some c) :
    stepsLeft (openCall n cap s) c ≤ 2 * min n s.input.length + 2 := by
  obtain rfl := Option.some.inj hc
  have := stepsOwed_le_one s.params s.eng
  simp only [stepsLeft, openCall_params, openCall_eng]
  omega

theorem exec_process (hc : s.call = none) : exec (.process n cap) s =
    runCall (2 * min n s.input.length + 2) (openCall n cap s) := by
  simp only [exec, execProcess, hc]

/-- How PROCESS ends (R261). -/
theorem callOutcome_process (n cap : Nat) (hc : s.call = none) :
    CallOutcome (openCall n cap s) (exec (.process n cap) s) := by
  rw [exec_process hc]
  exact callOutcome_runCall _ rfl (stepsLeft_openCall rfl)

/-- A call that answers has run to a state where nothing is selected, and returned there. -/
theorem exec_process_next (hc : s.call = none) (h : exec (.process n cap) s = .next t) :
    ∃ u c, MicroRun (openCall n cap s) u ∧ u.call = some c ∧ selectIn u c = none ∧
      t = returnCall u := by
  have hout := callOutcome_process n cap hc
  rw [h] at hout
  cases hout with
  | returned hrun hcall hsel => exact ⟨_, _, hrun, hcall, hsel, rfl⟩

/-! ## The machine's own steps through a call -/

theorem core_run_succ_of_next (k : Nat) (h : step s = .next t) :
    Host.Core.run core (k + 1) s = Host.Core.run core k t := by
  have hstep : core.step s = .next t := h
  simp only [Host.Core.run, hstep]

theorem core_run_succ_of_refused (k : Nat) {r : Refusal} (h : step s = .refused r) :
    Host.Core.run core (k + 1) s = .refused r := by
  have hstep : core.step s = .refused r := h
  simp only [Host.Core.run, hstep]

/-- The machine's steps follow the loop turn by turn, with one more for the return. -/
theorem core_run_eq_runCall (fuel : Nat) (hc : s.call = some c) (hfuel : stepsLeft s c ≤ fuel) :
    ∃ k, k ≤ fuel + 1 ∧ Host.Core.run core k s = runCall fuel s := by
  induction fuel generalizing s c with
  | zero =>
    have hsel := selectIn_eq_none_of_stepsLeft (Nat.le_zero.mp hfuel)
    exact ⟨1, le_rfl, core_run_succ_of_next 0 (step_of_selectIn_eq_none hc hsel)⟩
  | succ fuel ih =>
    obtain hsel | ⟨x, len, hsel⟩ | ⟨i, hsel, href, hless⟩ := selectIn_cases s c
    · rw [runCall_of_select_none _ hc hsel]
      exact ⟨1, by omega, core_run_succ_of_next 0 (step_of_selectIn_eq_none hc hsel)⟩
    · rw [runCall_of_select_refuse fuel hc hsel]
      exact ⟨1, by omega, core_run_succ_of_refused 0 (step_of_selectIn hc hsel)⟩
    · rw [runCall_of_select fuel hc hsel href]
      have hlt := hless _ rfl
      obtain ⟨k, hk, hrun⟩ := ih (s := advance s c i) rfl (by omega)
      refine ⟨k + 1, by omega, ?_⟩
      rw [core_run_succ_of_next k (step_of_select hc hsel href), hrun]

/-! ## What a window holds -/

/-- A head byte is one of the bytes the call presents. -/
theorem mem_take_of_headItem {item : InItem} (hc : c.window = min n s.input.length)
    (h : headItem s c = some item) : item ∈ s.input.take n := by
  obtain ⟨hlt, hitem⟩ := headItem_eq_some_iff.mp h
  refine List.mem_of_getElem? (i := c.consumed) ?_
  rw [List.getElem?_take_of_lt (by omega), hitem]

/-- A call that is refused presented an inadmissible annotation (R214). -/
theorem inadmissible_of_process_refused (hc : s.call = none) {r : Refusal}
    (h : exec (.process n cap) s = .refused r) : r = .inadmissibleLength ∧
      ∃ item ∈ s.input.take n, ∃ len, item.tag = some len ∧
        admissibleLength s.params.cntW len = false := by
  have hout := callOutcome_process n cap hc
  rw [h] at hout
  cases hout with
  | @refused t c x len hrun hcall hsel =>
    refine ⟨rfl, ⟨x, some len⟩, ?_, len, rfl, ?_⟩
    all_goals
      obtain ⟨hcand, _⟩ := select_eq_some_iff.mp hsel
      obtain ⟨_, hhead, hlen⟩ := candidateReading_refuse_iff.mp hcand
      obtain ⟨c', hc', hw, _⟩ := hrun.call_eq rfl
      obtain rfl : c' = c := Option.some.inj (hc'.symm.trans hcall)
    · have hinput : t.input = s.input := hrun.input_eq
      rw [← hinput]
      exact mem_take_of_headItem (by rw [hw, hinput]) hhead
    · have hprm : t.params = s.params := hrun.params_eq
      rwa [hprm] at hlen

theorem process_ne_fault (hc : s.call = none) (f : Fault) : exec (.process n cap) s ≠ .fault f := by
  intro h
  have hout := callOutcome_process n cap hc
  rw [h] at hout
  cases hout

end

end Sys2Proof.Machine

/-! PROOFS. Whole calls and the invariant (43_buffer_controller.md sections 1 and 3): what PROCESS
answers, what a step refuses, and what every step of the machine keeps. -/

namespace Sys2Proof.Machine

/-! ## Whole calls -/

/-- Settles O23: the loop is the machine's own steps, and R265's bound covers it. -/
theorem processIsItsMicroSteps : Obligations.ProcessIsItsMicroSteps := by
  intro s n cap hc
  obtain ⟨k, hk, hrun⟩ := core_run_eq_runCall (s := openCall n cap s)
    (2 * min n s.input.length + 2) rfl (stepsLeft_openCall rfl)
  exact ⟨k, by omega, by rw [hrun, exec_process hc]⟩

/-- Settles O20: a faulted engine has no candidate, so the call returns at once. -/
theorem faultedCallReturnsNothing : Obligations.FaultedCallReturnsNothing := by
  intro s n cap hc hfault
  have hsel (c : Call) : selectIn (openCall n cap s) c = none :=
    select_eq_none_of_candidate_eq_none
      (candidate_of_faulted (segment_eq_faulted_iff.mpr hfault))
  rw [exec_process hc, runCall_of_select_none _ rfl (hsel _), returnCall_of_some rfl]
  simp [openCall, ← hc]

section
variable {s t : State} {n cap : Nat}

/-- The return of a run from the presented call: what R134 and R266 say of it. -/
theorem returnCall_of_microRun {c : Call} (hrun : MicroRun (openCall n cap s) t)
    (hc : t.call = some c) (hnone : s.call = none) :
    CallInv s.input.length c ∧ c.window = min n s.input.length ∧ c.cap = cap ∧
      returnCall t = { s with
        eng := t.eng
        input := s.input.drop c.consumed
        rp := s.rp + c.consumed
        wp := s.wp + c.produced
        output := s.output ++ c.events
        replies := s.replies ++ [.returned c.consumed c.produced c.events] } := by
  have hinv : ∀ c, t.call = some c → CallInv t.input.length c :=
    hrun.keeps (P := fun t => ∀ c, t.call = some c → CallInv t.input.length c)
      (fun _ _ hinv hstep => hstep.callInv hinv) callInv_openCall
  obtain ⟨c', hc', hw, hcap⟩ := hrun.call_eq rfl
  obtain rfl : c' = c := Option.some.inj (hc'.symm.trans hc)
  have hinput : t.input = s.input := hrun.input_eq
  refine ⟨hinput ▸ hinv c' hc, hw, hcap, ?_⟩
  rw [returnCall_of_some hc, hrun.frame]
  simp [openCall, hnone]

end

/-- Settles O22: the call is not refused, and its return is bounded by the run's invariant. -/
theorem processCompletesAndAnswers : Obligations.ProcessCompletesAndAnswers := by
  intro s n cap hc hadm
  cases h : exec (.process n cap) s with
  | next t =>
    obtain ⟨u, c, hrun, hcall, _, rfl⟩ := exec_process_next hc h
    obtain ⟨⟨hk, hw, hp, hchips⟩, hwin, hcap, hret⟩ := returnCall_of_microRun hrun hcall hc
    refine ⟨_, c.consumed, c.produced, c.events, rfl, by omega, by omega, by omega, hchips, ?_⟩
    rw [hret, hc]
  | fault f => exact absurd h (process_ne_fault hc f)
  | refused r =>
    obtain ⟨_, item, hmem, len, htag, hlen⟩ := inadmissible_of_process_refused hc h
    have hbad := admissibleLength_eq_false_iff.mp hlen
    have hgood := hadm item hmem len htag
    omega

/-- Settles O8: inside a call only REFUSE is refused, between calls only a PROCESS that meets it. -/
theorem stepRefusesOnlyBadAnnotations : Obligations.StepRefusesOnlyBadAnnotations := by
  intro s
  cases hc : s.call with
  | some c =>
    obtain hsel | ⟨x, len, hsel⟩ | ⟨i, hsel, href, _⟩ := selectIn_cases s c
    · rw [step_of_selectIn_eq_none hc hsel]
      exact ⟨nofun, nofun⟩
    · obtain ⟨hcand, _⟩ := select_eq_some_iff.mp hsel
      obtain ⟨hreads, hhead, hlen⟩ := candidateReading_refuse_iff.mp hcand
      rw [step_of_selectIn hc hsel]
      refine ⟨fun r hr => ?_, nofun⟩
      cases hr
      exact ⟨rfl, .inl ⟨c, x, len, rfl, hreads, hhead, admissibleLength_eq_false_iff.mp hlen⟩⟩
    · rw [step_of_select hc hsel href]
      exact ⟨nofun, nofun⟩
  | none =>
    cases hops : s.ops with
    | nil =>
      have hstep : step s = if s.eng.fault then .fault .fatal else .next s := by
        simp only [step, hc, hops]
      rw [hstep]
      split
      next hfault => exact ⟨nofun, fun _ _ => ⟨hfault, rfl, rfl⟩⟩
      next => exact ⟨nofun, nofun⟩
    | cons op rest =>
      have hstep : step s = exec (hostInstr op) { s with ops := rest } := by
        simp only [step, hc, hops]
      rw [hstep]
      cases op with
      | process n cap =>
        have hc' : State.call { s with ops := rest } = none := hc
        refine ⟨fun r hr => ?_, fun f hf => absurd hf (process_ne_fault hc' f)⟩
        obtain ⟨rfl, item, hmem, len, htag, hlen⟩ := inadmissible_of_process_refused hc' hr
        exact ⟨rfl, .inr ⟨rfl, n, cap, rest, rfl, item, hmem, len, htag,
          admissibleLength_eq_false_iff.mp hlen⟩⟩
      | forecast n => exact ⟨nofun, nofun⟩
      | reset =>
        simp only [hostInstr, exec, execReset, hc]
        exact ⟨nofun, nofun⟩

/-! ## What every instruction keeps -/

section
variable {s t : State} {i : Instr}

/-- The parts of every instruction: micro-steps, the return and the opening of a call, the answer
of a forecast, and, for RESET alone, the reset registers. What all of them keep, `exec` keeps. -/
theorem exec_keeps {P : State → Prop} (hmicro : ∀ s t, P s → MicroStep s t → P t)
    (hreturn : ∀ s, P s → P (returnCall s))
    (hopen : ∀ s n cap, P s → s.call = none → P (openCall n cap s))
    (hforecast : ∀ s n, P s →
      P { s with replies := s.replies ++ [.forecast (forecastBytes s.params s.eng n)] })
    (hreset : i = .reset → ∀ s, P s → s.call = none → P (resetRegisters s))
    (hp : P s) (h : exec i s = .next t) : P t := by
  cases hh : isHostOp i with
  | false =>
    obtain ⟨c, hc, hcand, ⟨hfit, rfl⟩ | ⟨_, rfl⟩⟩ := exec_next_cases hh h
    · refine hmicro s _ hp ⟨c, i, hc, hcand, hfit, ?_, rfl⟩
      rintro x len rfl
      cases h
    · exact hreturn s hp
  | true =>
    cases i with
    | process n cap =>
      cases hc : s.call with
      | some c => simp only [exec, execProcess, hc] at h; cases h
      | none =>
        obtain ⟨u, c, hrun, _, _, rfl⟩ := exec_process_next hc h
        exact hreturn u (hrun.keeps hmicro (hopen s n cap hp hc))
    | forecast n =>
      cases h
      exact hforecast s n hp
    | reset =>
      cases hc : s.call with
      | some c => simp only [exec, execReset, hc] at h; cases h
      | none =>
        simp only [exec, execReset, hc] at h
        cases h
        exact hreset rfl s hp hc
    | _ => cases hh

/-- The same for a step of the machine, if taking an operation off the queue keeps it too. -/
theorem step_keeps {P : State → Prop} (hmicro : ∀ s t, P s → MicroStep s t → P t)
    (hreturn : ∀ s, P s → P (returnCall s))
    (hopen : ∀ s n cap, P s → s.call = none → P (openCall n cap s))
    (hforecast : ∀ s n, P s →
      P { s with replies := s.replies ++ [.forecast (forecastBytes s.params s.eng n)] })
    (hreset : ∀ s, P s → s.call = none → P (resetRegisters s))
    (hops : ∀ s ops, P s → P { s with ops := ops })
    (hp : P s) (h : step s = .next t) : P t := by
  have hexec (i : Instr) (s : State) (hp : P s) (h : exec i s = .next t) : P t :=
    exec_keeps hmicro hreturn hopen hforecast (fun _ => hreset) hp h
  unfold step at h
  split at h
  · split at h
    · exact hexec _ s hp h
    · cases h
      exact hreturn s hp
  · split at h
    next op rest _ => exact hexec _ _ (hops s rest hp) h
    · split at h
      · cases h
      · cases h
        exact hp

end

/-- Settles O21: no micro-step is enabled while the bit is set, and no other operation writes it. -/
theorem onlyResetClearsFault : Obligations.OnlyResetClearsFault := by
  intro i s t hfault hne h
  refine exec_keeps (P := fun s => s.eng.fault = true) ?_ ?_ (fun _ _ _ hf _ => hf)
    (fun _ _ hf => hf) (fun heq => absurd heq hne) hfault h
  · rintro s _ hf ⟨c, i, _, hcand, _⟩
    have hnone := candidate_of_faulted (head := headItem s c)
      (segment_eq_faulted_iff (prm := s.params) |>.mpr hf)
    cases (candidate_eq_some_iff.mpr hcand).symm.trans hnone
  · intro s hf
    rw [returnCall_eng]
    exact hf

/-! ## The frame of `S` -/

section
variable {prm : Params} {S : Engine} {head : Option InItem} {i : Instr}

/-- Without START the rate stays. -/
theorem CandidateReading.effect_rate (h : CandidateReading prm S head i) (hs : isStart i = false) :
    (effect prm S i).eng.rate = S.rate := by
  cases h with
  | start => rw [isStart_decodeSelector] at hs; cases hs
  | map => rw [effect_mapInstr]; rfl
  | _ => rfl

/-- Without START and TRAILER the trailer state stays. -/
theorem CandidateReading.effect_dAppend (h : CandidateReading prm S head i)
    (hs : isStart i = false) (htrailer : i ≠ .trailer) :
    (effect prm S i).eng.dAppend = S.dAppend := by
  cases h with
  | start => rw [isStart_decodeSelector] at hs; cases hs
  | trailer => exact absurd rfl htrailer
  | map => rw [effect_mapInstr]; rfl
  | _ => rfl

/-- Without FAULT the fault bit stays. -/
theorem CandidateReading.effect_fault (h : CandidateReading prm S head i)
    (hfault : ∀ cause, i ≠ .fault cause) : (effect prm S i).eng.fault = S.fault := by
  cases h with
  | badRate | badState => exact absurd rfl (hfault _)
  | start => rw [effect_decodeSelector, selectorEffect_fault]
  | map => rw [effect_mapInstr]; rfl
  | _ => rfl

end

/-- Settles O39: each field of `S` by the kinds of step that write it, the rest of the state by what
every instruction keeps. -/
theorem otherFieldsHaveTheirWriters : Obligations.OtherFieldsHaveTheirWriters := by
  constructor
  · intro i s t hh h
    obtain ⟨c, _, hcand, ⟨_, rfl⟩ | ⟨_, rfl⟩⟩ := exec_next_cases hh h
    · refine ⟨hcand.effect_rate, fun hs hmap => ?_, hcand.effect_dAppend, hcand.effect_fault⟩
      rw [advance_eng, hcand.effect_eng_of_not_start_of_not_map hs hmap]
      exact ⟨rfl, rfl⟩
    · rw [returnCall_eng]
      exact ⟨fun _ => rfl, fun _ _ => ⟨rfl, rfl⟩, fun _ _ => rfl, fun _ => rfl⟩
  · intro i s t h
    refine exec_keeps (P := fun u => u.params = s.params ∧ u.ops = s.ops) ?_ ?_
      (fun _ _ _ hu _ => hu) (fun _ _ hu => hu) (fun _ _ hu _ => hu) ⟨rfl, rfl⟩ h
    · rintro u _ hu ⟨c, i, _, _, _, _, rfl⟩
      exact hu
    · intro u hu
      rw [returnCall_params, returnCall_ops]
      exact hu

/-! ## Register widths (R8, R32) -/

section
variable {prm : Params} {S : Engine} {head : Option InItem} {i : Instr} {x : Byte} {len : Nat}
  {s t : State}

theorem registersFit_selectorEffect (hlen : admissibleLength prm.cntW len = true) :
    registersFit prm (selectorEffect prm S x len).eng := by
  obtain ⟨hpos, hmax⟩ := admissibleLength_iff.mp hlen
  have hcount : len - 1 < 2 ^ prm.cntW := by omega
  have hcnt : 0 < 2 ^ prm.cntW := Nat.two_pow_pos _
  have hsym : 0 < 2 ^ prm.symW := Nat.two_pow_pos _
  unfold selectorEffect
  split
  · exact ⟨hcnt, hcount, hsym⟩
  · exact ⟨hcnt, hcnt, hsym⟩

theorem symbolsAfter_lt (h : S.dPsduSymbolCount < 2 ^ prm.symW) :
    symbolsAfter prm S < 2 ^ prm.symW := by
  unfold symbolsAfter
  split
  · exact addSymbols_lt prm _ _
  · exact h

/-- No step takes a counter past its width: a MAP needs a byte of the packet still to come. -/
theorem CandidateReading.registersFit_effect (h : CandidateReading prm S head i)
    (hfit : registersFit prm S) : registersFit prm (effect prm S i).eng := by
  obtain ⟨hcopy, hcount, hsym⟩ := hfit
  cases h with
  | start _ _ hlen =>
    rw [effect_decodeSelector]
    exact registersFit_selectorEffect hlen
  | map hm =>
    obtain ⟨hlt, _⟩ := lt_of_mapper hm
    rw [effect_mapInstr]
    exact ⟨Nat.lt_of_le_of_lt hlt hcount, hcount, symbolsAfter_lt hsym⟩
  | _ => exact ⟨hcopy, hcount, hsym⟩

theorem registersFit_resetEngine (prm : Params) : registersFit prm resetEngine :=
  ⟨Nat.two_pow_pos _, Nat.two_pow_pos _, Nat.two_pow_pos _⟩

theorem MicroStep.registersFit (hstep : MicroStep s t) (hfit : registersFit s.params s.eng) :
    registersFit t.params t.eng := by
  obtain ⟨c, i, _, hcand, _, _, rfl⟩ := hstep
  exact hcand.registersFit_effect hfit

end

/-- Settles O48: each kind of step keeps the widths. -/
theorem stepKeepsRegisterWidths : Obligations.StepKeepsRegisterWidths := by
  intro s t hfit h
  refine step_keeps (P := fun s => registersFit s.params s.eng)
    (fun _ _ hfit hstep => hstep.registersFit hfit) (fun s hfit => ?_)
    (fun _ _ _ hfit _ => hfit) (fun _ _ hfit => hfit)
    (fun s _ _ => registersFit_resetEngine s.params) (fun _ _ hfit => hfit) hfit h
  rw [returnCall_params, returnCall_eng]
  exact hfit

/-! ## The invariant (R290) -/

section
variable {prm : Params} {S : Engine} {head : Option InItem} {i : Instr} {x : Byte} {len : Nat}
  {m : Mapper} {s t : State}

/-- Under the invariant no fault segment arises. -/
theorem EngineInv.segment_ne (h : EngineInv S) :
    segment prm S ≠ .faulted ∧ segment prm S ≠ .badRate ∧ segment prm S ≠ .badState := by
  obtain ⟨hfault, hle, happ, hrate, _⟩ := h
  refine ⟨fun hseg => ?_, fun hseg => ?_, fun hseg => ?_⟩
  · rw [segment_eq_faulted_iff, hfault] at hseg
    cases hseg
  · obtain ⟨_, _, _, h7⟩ := segment_eq_badRate_iff.mp hseg
    exact ne_seven_of_le_six hrate h7
  · obtain ⟨_, hlt | ⟨h0, h11⟩⟩ := segment_eq_badState_iff.mp hseg
    · omega
    · exact happ.elim h0 h11

/-- A valid selector's rate is a valid code (R100). -/
theorem ofNat_le_six (h : x.toNat ≤ 6) : BitVec.ofNat 3 x.toNat ≤ 6 := by
  rw [BitVec.le_def, BitVec.toNat_ofNat, Nat.mod_eq_of_lt (by omega)]
  exact h

theorem engineInv_selectorEffect (hfault : S.fault = false) :
    EngineInv (selectorEffect prm S x len).eng := by
  unfold selectorEffect
  split
  next hx => exact ⟨hfault, Nat.zero_le _, .inl rfl, ofNat_le_six hx, Nat.zero_le _⟩
  next => exact ⟨hfault, le_rfl, ite_eq_or_eq _ _ _, (by decide : (0 : Rate) ≤ 6), Nat.zero_le _⟩

/-- A mapped byte adds at most 8 symbols, exactly: the packet's length keeps the sum in its width
(R38). -/
theorem symbolsAfter_le (hm : mapper prm S = some m) (hfit : registersFit prm S)
    (hsym : S.dPsduSymbolCount ≤ 8 * S.dCopy) : symbolsAfter prm S ≤ 8 * (S.dCopy + 1) := by
  obtain ⟨hlt, _⟩ := lt_of_mapper hm
  obtain ⟨_, hcount, _⟩ := hfit
  have hspb := symbolsPerByte_le S.rate
  have hwidth : 2 ^ prm.symW = 8 * 2 ^ prm.cntW := by rw [Params.symW, Nat.pow_add, Nat.mul_comm]
  unfold symbolsAfter
  split
  · rw [addSymbols_of_lt (by omega)]
    omega
  · omega

theorem CandidateReading.engineInv_effect (h : CandidateReading prm S head i)
    (hinv : EngineInv S) (hfit : registersFit prm S) : EngineInv (effect prm S i).eng := by
  obtain ⟨_, hrateNe, hstateNe⟩ := hinv.segment_ne (prm := prm)
  obtain ⟨hfault, hle, happ, hrate, hsym⟩ := hinv
  cases h with
  | badRate hseg => exact absurd hseg hrateNe
  | badState hseg => exact absurd hseg hstateNe
  | trailer => exact ⟨hfault, hle, .inr rfl, hrate, hsym⟩
  | start =>
    rw [effect_decodeSelector]
    exact engineInv_selectorEffect hfault
  | map hm =>
    obtain ⟨hlt, _⟩ := lt_of_mapper hm
    rw [effect_mapInstr]
    exact ⟨hfault, hlt, happ, hrate, symbolsAfter_le hm hfit hsym⟩
  | refuse | discard => exact ⟨hfault, hle, happ, hrate, hsym⟩

theorem MicroStep.inv (hstep : MicroStep s t) (hinv : Inv s) : Inv t := by
  obtain ⟨heng, hfit, hcall, hstream⟩ := hinv
  have hfit' := hstep.registersFit hfit
  have hcall' := hstep.callInv hcall
  obtain ⟨c, i, _, hcand, _, _, rfl⟩ := hstep
  exact ⟨hcand.engineInv_effect heng hfit, hfit', hcall', hstream⟩

/-- The return adds the call's progress to the positions and its events to the output. -/
theorem inv_returnCall (hinv : Inv s) : Inv (returnCall s) := by
  cases hc : s.call with
  | none => rwa [returnCall_of_none hc]
  | some c =>
    obtain ⟨heng, hfit, hcall, hrp, hwp, hout, hchips⟩ := hinv
    obtain ⟨_, _, _, hevents⟩ := hcall c hc
    rw [returnCall_of_some hc]
    refine ⟨heng, hfit, nofun, ?_, ?_, ?_, ?_⟩
    · simp [hrp, replyConsumed]
    · simp [hwp, replyProduced]
    · simp [hout, replyEvents]
    · simp [hchips, hevents]

theorem inv_openCall (n cap : Nat) (hinv : Inv s) : Inv (openCall n cap s) := by
  obtain ⟨heng, hfit, _, hstream⟩ := hinv
  exact ⟨heng, hfit, callInv_openCall, hstream⟩

theorem inv_forecast (b : Nat) (hinv : Inv s) :
    Inv { s with replies := s.replies ++ [.forecast b] } := by
  obtain ⟨heng, hfit, hcall, hrp, hwp, hout, hchips⟩ := hinv
  refine ⟨heng, hfit, hcall, ?_, ?_, ?_, hchips⟩
  · simp [hrp, replyConsumed]
  · simp [hwp, replyProduced]
  · simp [hout, replyEvents]

theorem engineInv_resetEngine : EngineInv resetEngine :=
  ⟨rfl, le_rfl, .inr rfl, by decide, le_rfl⟩

theorem inv_resetRegisters (hinv : Inv s) : Inv (resetRegisters s) := by
  obtain ⟨_, _, hcall, hstream⟩ := hinv
  exact ⟨engineInv_resetEngine, registersFit_resetEngine _, hcall, hstream⟩

theorem inv_resetWith (prm : Params) : Inv (State.resetWith prm) :=
  ⟨engineInv_resetEngine, registersFit_resetEngine prm, nofun, rfl, rfl, rfl, rfl⟩

end

/-- Settles O47: each thing a step can do keeps the invariant. -/
theorem stepKeepsInvariant : Obligations.StepKeepsInvariant :=
  ⟨fun _ _ hinv h => step_keeps (P := Inv) (fun _ _ hinv hstep => hstep.inv hinv)
      (fun _ => inv_returnCall) (fun _ n cap hinv _ => inv_openCall n cap hinv)
      (fun _ _ => inv_forecast _) (fun _ hinv _ => inv_resetRegisters hinv) (fun _ _ hinv => hinv)
      hinv h,
    fun _ _ hinv => hinv.segment_ne⟩

/-- Settles O46: the reset registers meet every clause, and the streams are empty. -/
theorem resetMeetsInvariant : Obligations.ResetMeetsInvariant :=
  ⟨by decide, inv_resetWith defaultParams, fun prm =>
    ⟨inv_resetWith prm, segment_eq_idle_iff.mpr ⟨rfl, rfl, rfl⟩⟩⟩

/-! ## Tags (R74, R221) -/

/-- The tags of a longer stream sit behind the chips of the stream before. -/
theorem tagPositions_append (a b : List Event) (at0 : Nat) :
    tagPositions at0 (a ++ b) = tagPositions at0 a ++ tagPositions (at0 + chipCount a) b := by
  induction a generalizing at0 with
  | nil => rfl
  | cons ev a ih =>
    have hcount : chipCount (ev :: a) = chipCount [ev] + chipCount a :=
      chipCount_append [ev] a
    cases ev with
    | chip q =>
      have hone : chipCount [.chip q] = 1 := rfl
      simp only [List.cons_append, tagPositions, ih, hcount, hone, Nat.add_assoc]
    | tag e => simp only [List.cons_append, tagPositions, ih, hcount, chipCount_tag, Nat.zero_add]
    | rejectEv sel code =>
      simp only [List.cons_append, tagPositions, ih, hcount, chipCount_rejectEv, Nat.zero_add]
    | fatalEv code =>
      simp only [List.cons_append, tagPositions, ih, hcount, chipCount_fatalEv, Nat.zero_add]

/-- Settles O45: the Tag is appended behind the chips the call has produced. -/
theorem tagSitsAtFirstChip : Obligations.TagSitsAtFirstChip := by
  intro i s t c x len hinv hc hs henc hx h
  obtain ⟨_, _, hcall, _⟩ := hinv
  obtain ⟨_, _, _, hchips⟩ := hcall c hc
  obtain ⟨c', hc', rfl⟩ := eq_advance_of_isStart hs h
  obtain rfl : c' = c := Option.some.inj (hc'.symm.trans hc)
  refine ⟨_, rfl, by simp [groupChips_of_isStart hs], ?_⟩
  rw [tagPositions_append, hchips, effect_of_encode hs henc, selectorEffect, if_pos hx]
  rfl

end Sys2Proof.Machine

/-! PROOFS. Chunking (43_buffer_controller.md section 3, R88 and R291): what the host has seen
once the running call returns follows one deterministic course, of which every splitting into
calls is an initial part and the one ample call the whole. -/

namespace Sys2Proof.Machine

/-! ## The course of the streams -/

/-- What is seen of a state once the running call, if there is one, has returned: `S` and the
streams with their positions. -/
structure Flow where
  eng : Engine
  input : List InItem
  rp : Nat
  output : List Event
  wp : Nat

/-- The flow of a state. -/
def flowOf (s : State) : Flow :=
  let t := returnCall s
  ⟨t.eng, t.input, t.rp, t.output, t.wp⟩

/-- A step taken from a flow. -/
def Flow.after (prm : Params) (f : Flow) (i : Instr) : Flow where
  eng := (effect prm f.eng i).eng
  input := f.input.drop (bytesTaken i)
  rp := f.rp + bytesTaken i
  output := f.output ++ (effect prm f.eng i).events
  wp := f.wp + groupChips i

/-- The step that `S` and the next input byte determine, without regard to windows and capacities.
-/
def FlowStep (prm : Params) (f g : Flow) : Prop :=
  ∃ i, CandidateReading prm f.eng f.input.head? i ∧ (∀ x len, i ≠ .refuse x len) ∧
    g = f.after prm i

abbrev FlowRun (prm : Params) : Flow → Flow → Prop := Relation.ReflTransGen (FlowStep prm)

section
variable {prm : Params} {S : Engine} {i : Instr} {f g h : Flow} {s t u : State} {c : Call}
  {n cap : Nat} {calls : List (Nat × Nat)}

theorem flowOf_of_none (hc : s.call = none) :
    flowOf s = ⟨s.eng, s.input, s.rp, s.output, s.wp⟩ := by
  rw [flowOf, returnCall_of_none hc]

theorem flowOf_of_some (hc : s.call = some c) :
    flowOf s = ⟨s.eng, s.input.drop c.consumed, s.rp + c.consumed, s.output ++ c.events,
      s.wp + c.produced⟩ := by
  rw [flowOf, returnCall_of_some hc]

theorem flowOf_returnCall (s : State) : flowOf (returnCall s) = flowOf s := by
  rw [flowOf, returnCall_of_none (returnCall_call s), flowOf]

theorem flowOf_openCall (hc : s.call = none) : flowOf (openCall n cap s) = flowOf s := by
  rw [flowOf_of_some (openCall_call n cap s), flowOf_of_none hc]
  simp

theorem flowOf_advance (hc : s.call = some c) :
    flowOf (advance s c i) = (flowOf s).after s.params i := by
  rw [flowOf_of_some hc, flowOf_of_some advance_call]
  simp [Flow.after, Nat.add_assoc]

/-- The next input byte of the flow is the byte at the read offset. -/
theorem flowOf_input_head? (hc : s.call = some c) :
    (flowOf s).input.head? = s.input[c.consumed]? := by
  rw [flowOf_of_some hc, List.head?_drop]

/-- A candidate that needs no byte is one whatever the head is. -/
theorem CandidateReading.of_none {head : Option InItem} (h : CandidateReading prm S none i) :
    CandidateReading prm S head i := by
  cases h with
  | badRate hseg => exact .badRate hseg
  | badState hseg => exact .badState hseg
  | trailer hseg => exact .trailer hseg
  | start _ hhead | refuse _ hhead | discard _ hhead | map _ hhead => cases hhead

/-- A candidate inside the window is the flow's: where the window is used up, it needs no byte. -/
theorem CandidateReading.of_headItem (hc : s.call = some c)
    (h : CandidateReading prm S (headItem s c) i) :
    CandidateReading prm S (flowOf s).input.head? i := by
  rw [flowOf_input_head? hc]
  unfold headItem at h
  split at h
  · exact h
  · exact h.of_none

theorem MicroStep.flowStep (hstep : MicroStep s t) : FlowStep s.params (flowOf s) (flowOf t) := by
  obtain ⟨c, i, hc, hcand, _, href, rfl⟩ := hstep
  refine ⟨i, ?_, href, flowOf_advance hc⟩
  have heng : (flowOf s).eng = s.eng := by rw [flowOf_of_some hc]
  rw [heng]
  exact hcand.of_headItem hc

theorem MicroRun.flowRun (hrun : MicroRun s t) : FlowRun s.params (flowOf s) (flowOf t) := by
  induction hrun with
  | refl => exact .refl
  | tail hrun hstep ih =>
    have hprm := MicroRun.params_eq hrun
    exact ih.tail (hprm ▸ hstep.flowStep)

/-- A call moves along the flow. -/
theorem flowRun_of_process (hc : s.call = none) (hexec : exec (.process n cap) s = .next t) :
    FlowRun s.params (flowOf s) (flowOf t) := by
  obtain ⟨u, c, hrun, _, _, rfl⟩ := exec_process_next hc hexec
  rw [flowOf_returnCall, ← flowOf_openCall (n := n) (cap := cap) hc]
  exact hrun.flowRun

theorem exec_process_params_call (hc : s.call = none) (hexec : exec (.process n cap) s = .next t) :
    t.params = s.params ∧ t.call = none := by
  obtain ⟨u, c, hrun, _, _, rfl⟩ := exec_process_next hc hexec
  exact ⟨(returnCall_params u).trans hrun.params_eq, returnCall_call u⟩

/-- A successful sequence of calls is its first call and the rest. -/
theorem runCalls_cons_next (hruns : runCalls ((n, cap) :: calls) s = .next t) :
    ∃ u, exec (.process n cap) s = .next u ∧ runCalls calls u = .next t := by
  simp only [runCalls] at hruns
  split at hruns
  next u hu => exact ⟨u, hu, hruns⟩
  all_goals cases hruns

/-- Successive calls move along the flow too. -/
theorem flowRun_of_runCalls (hc : s.call = none) (hruns : runCalls calls s = .next t) :
    FlowRun s.params (flowOf s) (flowOf t) ∧ t.params = s.params ∧ t.call = none := by
  induction calls generalizing s with
  | nil =>
    cases hruns
    exact ⟨.refl, rfl, hc⟩
  | cons call calls ih =>
    obtain ⟨n, cap⟩ := call
    obtain ⟨u, hexec, hrest⟩ := runCalls_cons_next hruns
    obtain ⟨hprm, hcall⟩ := exec_process_params_call hc hexec
    obtain ⟨hflow, hprm', hcall'⟩ := ih hcall hrest
    exact ⟨(flowRun_of_process hc hexec).trans (hprm ▸ hflow), hprm'.trans hprm, hcall'⟩

/-- The last of a sequence of calls returned where it selected no step. -/
theorem exists_last_call (hne : calls ≠ []) (hc : s.call = none)
    (hruns : runCalls calls s = .next t) :
    ∃ u c, u.call = some c ∧ selectIn u c = none ∧ t = returnCall u := by
  induction calls generalizing s with
  | nil => exact absurd rfl hne
  | cons call calls ih =>
    obtain ⟨n, cap⟩ := call
    obtain ⟨v, hexec, hrest⟩ := runCalls_cons_next hruns
    cases calls with
    | nil =>
      cases hrest
      obtain ⟨u, c, _, hcall, hsel, rfl⟩ := exec_process_next hc hexec
      exact ⟨u, c, hcall, hsel, rfl⟩
    | cons call' calls' => exact ih nofun (exec_process_params_call hc hexec).2 hrest

/-! ## The flow is deterministic -/

theorem FlowStep.unique (hg : FlowStep prm f g) (hh : FlowStep prm f h) : g = h := by
  obtain ⟨i, hi, _, rfl⟩ := hg
  obtain ⟨j, hj, _, rfl⟩ := hh
  obtain rfl : i = j := Option.some.inj
    ((candidate_eq_some_iff.mpr hi).symm.trans (candidate_eq_some_iff.mpr hj))
  rfl

/-- A flow that goes no further. -/
def Flow.Stuck (prm : Params) (f : Flow) : Prop := ∀ g, ¬ FlowStep prm f g

theorem Flow.Stuck.eq_of_run (hf : f.Stuck prm) (hrun : FlowRun prm f g) : g = f := by
  obtain rfl | ⟨h, hstep, _⟩ := Relation.ReflTransGen.cases_head hrun
  · rfl
  · exact absurd hstep (hf h)

/-- Every flow reached lies on the way to a stuck one. -/
theorem FlowRun.to_stuck (hg : FlowRun prm f g) (hh : FlowRun prm f h) (hstuck : h.Stuck prm) :
    FlowRun prm g h := by
  have huniq : Relator.RightUnique (FlowStep prm) := fun _ _ _ hstep hstep' => hstep.unique hstep'
  obtain hgh | hhg := Relation.ReflTransGen.total_of_right_unique huniq hg hh
  · exact hgh
  · rw [hstuck.eq_of_run hhg]

/-- A flow has one end at most. -/
theorem FlowRun.stuck_unique (hg : FlowRun prm f g) (hh : FlowRun prm f h) (hsg : g.Stuck prm)
    (hsh : h.Stuck prm) : h = g :=
  hsg.eq_of_run (hg.to_stuck hh hsh)

/-- The output only grows along the flow (R84). -/
theorem FlowRun.output_extends (hrun : FlowRun prm f g) : ∃ more, g.output = f.output ++ more := by
  induction hrun with
  | refl => exact ⟨[], (List.append_nil _).symm⟩
  | tail _ hstep ih =>
    obtain ⟨more, hmore⟩ := ih
    obtain ⟨i, _, _, rfl⟩ := hstep
    exact ⟨_, by rw [Flow.after, hmore, List.append_assoc]⟩

/-- An inadmissible annotation is next: the flow is stuck. -/
theorem stuck_of_refuse {x : Byte} {len : Nat}
    (hcand : CandidateReading prm f.eng f.input.head? (.refuse x len)) : f.Stuck prm := by
  rintro g ⟨i, hi, href, _⟩
  exact href x len (Option.some.inj
    ((candidate_eq_some_iff.mpr hi).symm.trans (candidate_eq_some_iff.mpr hcand)))

/-! ## The one ample call -/

/-- The chips an owed trailer still needs (R39, R240). -/
def chipsOwed (S : Engine) : Nat := if S.dAppend = 0 then 11 else 0

theorem chipsOwed_le (S : Engine) : chipsOwed S ≤ 11 := by
  unfold chipsOwed
  split <;> decide

/-- A call that presents all the input and has 88 slots for each byte left and 11 for a trailer that
is owed. -/
def AmpleCall (s : State) : Prop :=
  ∃ c, s.call = some c ∧ c.window = s.input.length ∧
    c.produced + 88 * (c.window - c.consumed) + chipsOwed s.eng ≤ c.cap

theorem ampleCall_openCall (s : State) :
    AmpleCall (openCall s.input.length (ampleCap s) s) := by
  refine ⟨_, rfl, Nat.min_self _, ?_⟩
  have := chipsOwed_le s.eng
  simp only [openCall_eng, Nat.min_self, ampleCap]
  omega

/-- What a step writes is within what its byte, or the trailer it sends, had put by. -/
theorem CandidateReading.groupChips_add_chipsOwed_le {head : Option InItem}
    (h : CandidateReading prm S head i) :
    groupChips i + chipsOwed (effect prm S i).eng ≤ 88 * bytesTaken i + chipsOwed S := by
  cases h with
  | trailer hseg =>
    obtain ⟨_, _, h0⟩ := segment_eq_trailer_iff.mp hseg
    have howed : chipsOwed S = 11 := if_pos h0
    rw [howed]
    rfl
  | @start x len =>
    have := chipsOwed_le (effect prm S (decodeSelector x len)).eng
    rw [groupChips_decodeSelector, bytesTaken_decodeSelector]
    omega
  | @map m x =>
    have := mapperChips_le m
    rw [groupChips_mapInstr, bytesTaken_mapInstr, effect_mapInstr]
    change mapperChips m + chipsOwed S ≤ 88 * 1 + chipsOwed S
    omega
  | badRate | badState | refuse | discard =>
    change 0 + chipsOwed S ≤ _ + chipsOwed S
    omega

theorem MicroStep.ampleCall (hstep : MicroStep s t) (hample : AmpleCall s) : AmpleCall t := by
  obtain ⟨c, i, hc, hcand, _, _, rfl⟩ := hstep
  obtain ⟨c', hc', hw, hcap⟩ := hample
  obtain rfl : c = c' := Option.some.inj (hc.symm.trans hc')
  refine ⟨_, rfl, hw, ?_⟩
  have hchips := hcand.groupChips_add_chipsOwed_le
  have hbytes : bytesTaken i = 0 ∨ c.consumed + bytesTaken i ≤ c.window := by
    obtain ⟨item, hhead⟩ | hzero := hcand.head_or_bytesTaken_eq_zero
    · obtain ⟨hlt, _⟩ := headItem_eq_some_iff.mp hhead
      have := bytesTaken_le_one i
      omega
    · exact .inl hzero
  simp only [advance_eng]
  omega

/-- Where the ample call selects nothing, or REFUSE, the flow is stuck. -/
theorem stuck_of_ampleCall (hample : AmpleCall s) (hc : s.call = some c)
    (hsel : selectIn s c = none) : (flowOf s).Stuck s.params := by
  obtain ⟨c', hc', hw, hcap⟩ := hample
  obtain rfl : c' = c := Option.some.inj (hc'.symm.trans hc)
  have hhead : (flowOf s).input.head? = headItem s c' := by
    rw [flowOf_input_head? hc, headItem]
    split
    · rfl
    · exact List.getElem?_eq_none (by omega)
  rintro g ⟨i, hi, _, _⟩
  have heng : (flowOf s).eng = s.eng := by rw [flowOf_of_some hc]
  rw [heng, hhead] at hi
  have hchips := hi.groupChips_add_chipsOwed_le
  have hfit : groupChips i ≤ freeSlots c' := by
    unfold freeSlots
    obtain ⟨item, hitem⟩ | hzero := hi.head_or_bytesTaken_eq_zero
    · obtain ⟨hlt, _⟩ := headItem_eq_some_iff.mp hitem
      have := bytesTaken_le_one i
      omega
    · rw [hzero] at hchips
      omega
  have hsome : selectIn s c' = some i := select_eq_some_iff.mpr ⟨hi, hfit⟩
  rw [hsel] at hsome
  cases hsome

/-- The one ample call goes to the end of the flow, or is refused at an annotation the flow is stuck
at. -/
theorem ample_process_cases (hc : s.call = none) :
    (∃ u, exec (.process s.input.length (ampleCap s)) s = .next u ∧ u.call = none ∧
      FlowRun s.params (flowOf s) (flowOf u) ∧ (flowOf u).Stuck s.params) ∨
    (exec (.process s.input.length (ampleCap s)) s = .refused .inadmissibleLength ∧
      ∃ f item, FlowRun s.params (flowOf s) f ∧ f.Stuck s.params ∧
        f.input.head? = some item) := by
  have hout := callOutcome_process s.input.length (ampleCap s) hc
  generalize exec (.process s.input.length (ampleCap s)) s = out at hout ⊢
  cases hout with
  | @returned u c hrun hcall hsel =>
    have hflow := hrun.flowRun
    rw [flowOf_openCall hc] at hflow
    have hprm : u.params = s.params := hrun.params_eq
    have hample : AmpleCall u :=
      hrun.keeps (fun _ _ hample hstep => hstep.ampleCall hample) (ampleCall_openCall s)
    refine .inl ⟨_, rfl, returnCall_call u, ?_⟩
    rw [flowOf_returnCall, ← hprm]
    exact ⟨hprm ▸ hflow, stuck_of_ampleCall hample hcall hsel⟩
  | @refused u c x len hrun hcall hsel =>
    have hflow := hrun.flowRun
    rw [flowOf_openCall hc] at hflow
    have hprm : u.params = s.params := hrun.params_eq
    have heng : (flowOf u).eng = u.eng := by rw [flowOf_of_some hcall]
    obtain ⟨hcand, _⟩ := select_eq_some_iff.mp hsel
    have hnext := hcand.of_headItem hcall
    obtain ⟨_, hhead, _⟩ := candidateReading_refuse_iff.mp hnext
    rw [← heng, hprm] at hnext
    exact .inr ⟨rfl, _, _, hflow, stuck_of_refuse hnext, hhead⟩

end

/-- Settles O52: the split calls lie on the way to the end the ample call reaches. -/
theorem chunkedCallsAreAnInitialPart : Obligations.ChunkedCallsAreAnInitialPart := by
  intro s t u calls hc hruns hexec
  obtain ⟨hflow, _, hcall⟩ := flowRun_of_runCalls hc hruns
  obtain ⟨u', hexec', hcall', hu, hstuck⟩ | ⟨hrefused, _⟩ := ample_process_cases hc
  · obtain rfl : u = u' := Host.Outcome.next.inj (hexec.symm.trans hexec')
    obtain ⟨more, hmore⟩ := (hflow.to_stuck hu hstuck).output_extends
    rw [flowOf_of_none hcall, flowOf_of_none hcall'] at hmore
    exact ⟨more, hmore⟩
  · cases hexec.symm.trans hrefused

section
variable {s t : State} {calls : List (Nat × Nat)}

/-- Calls that have consumed all input and owe no trailer are at the end of the flow: the fault
steps need neither a byte nor capacity, so none is left over. -/
theorem stuck_of_runCalls (hne : calls ≠ []) (hc : s.call = none)
    (hruns : runCalls calls s = .next t) (hinput : t.input = [])
    (hseg : segment t.params t.eng ≠ .trailer) : (flowOf t).Stuck t.params := by
  obtain ⟨u, c, hcall, hsel, rfl⟩ := exists_last_call hne hc hruns
  rintro g ⟨i, hi, _, _⟩
  rw [flowOf_of_none (returnCall_call u), hinput] at hi
  rw [returnCall_params, returnCall_eng] at hseg hi
  have hzero : groupChips i = 0 := by
    cases hi with
    | badRate | badState => rfl
    | trailer htrailer => exact absurd htrailer hseg
    | start _ hhead | refuse _ hhead | discard _ hhead | map _ hhead => cases hhead
  have hsome : selectIn u c = some i :=
    select_eq_some_iff.mpr ⟨hi.of_none, by rw [hzero]; exact Nat.zero_le _⟩
  rw [hsel] at hsome
  cases hsome

end

/-- Settles O53: with all input consumed and no trailer owed the split calls are at the end too. -/
theorem chunkedCallsAgreeWhenDone : Obligations.ChunkedCallsAgreeWhenDone := by
  intro s t calls hc hne hruns hinput hseg
  obtain ⟨hflow, hprm, hcall⟩ := flowRun_of_runCalls hc hruns
  have hstuck : (flowOf t).Stuck s.params := hprm ▸ stuck_of_runCalls hne hc hruns hinput hseg
  obtain ⟨u, hexec, hcall', hu, hsu⟩ | ⟨_, f, item, hf, hsf, hhead⟩ := ample_process_cases hc
  · have heq : flowOf u = flowOf t := hflow.stuck_unique hu hstuck hsu
    rw [flowOf_of_none hcall, flowOf_of_none hcall'] at heq
    obtain ⟨heng, hinput', hrp, hout, hwp⟩ := Flow.mk.inj heq
    exact ⟨u, hexec, hout, heng, hinput'.trans hinput, hrp, hwp⟩
  · have heq : f = flowOf t := hflow.stuck_unique hf hstuck hsf
    rw [heq, flowOf_of_none hcall, hinput] at hhead
    cases hhead

end Sys2Proof.Machine

/-! PROOFS. Phases and lengths: the phase utility and quadrant arithmetic (40_phase_cck.md
sections 1 and 2), and the expected chip count of a packet (42_segment_fsm.md section 3). -/

namespace Sys2Proof.Machine

section
variable {theta : Rat} {fuel : Nat}

/-! ## wrap (R140) -/

/-- The first loop ends below 2π, a number of whole turns down, and not below 0 if it turned. -/
theorem wrapDown_spec (hfuel : theta < 2 * (fuel + 1)) :
    wrapDown fuel theta < 2 ∧ (∃ m : Int, wrapDown fuel theta = theta - 2 * m) ∧
      (theta < 2 → wrapDown fuel theta = theta) ∧ (2 ≤ theta → 0 ≤ wrapDown fuel theta) := by
  induction fuel generalizing theta with
  | zero =>
    have hlt : theta < 2 := by simpa using hfuel
    exact ⟨hlt, ⟨0, by simp [wrapDown]⟩, fun _ => rfl, fun hge => absurd hlt (not_lt.mpr hge)⟩
  | succ fuel ih =>
    by_cases hge : 2 ≤ theta
    · have hless : theta - 2 < 2 * (fuel + 1) := by push_cast at hfuel; linarith
      obtain ⟨hlt, ⟨m, hm⟩, hkeep, hnonneg⟩ := ih hless
      rw [wrapDown, if_pos hge]
      refine ⟨hlt, ⟨m + 1, by rw [hm]; push_cast; ring⟩, fun h => absurd h (not_lt.mpr hge),
        fun _ => ?_⟩
      obtain hlt2 | hge2 := lt_or_ge (theta - 2) 2
      · rw [hkeep hlt2]
        linarith
      · exact hnonneg hge2
    · rw [wrapDown, if_neg hge]
      exact ⟨not_le.mp hge, ⟨0, by simp⟩, fun _ => rfl, fun h => absurd h hge⟩

/-- The second loop likewise, upwards from below −2π. -/
theorem wrapUp_spec (hfuel : -(2 * (fuel + 1)) < theta) :
    -2 < wrapUp fuel theta ∧ (∃ m : Int, wrapUp fuel theta = theta - 2 * m) ∧
      (-2 < theta → wrapUp fuel theta = theta) ∧ (theta ≤ -2 → wrapUp fuel theta ≤ 0) := by
  induction fuel generalizing theta with
  | zero =>
    have hgt : -2 < theta := by simpa using hfuel
    exact ⟨hgt, ⟨0, by simp [wrapUp]⟩, fun _ => rfl, fun hle => absurd hgt (not_lt.mpr hle)⟩
  | succ fuel ih =>
    by_cases hle : theta ≤ -2
    · have hless : -(2 * (fuel + 1)) < theta + 2 := by push_cast at hfuel; linarith
      obtain ⟨hgt, ⟨m, hm⟩, hkeep, hnonpos⟩ := ih hless
      rw [wrapUp, if_pos hle]
      refine ⟨hgt, ⟨m - 1, by rw [hm]; push_cast; ring⟩, fun h => absurd h (not_lt.mpr hle),
        fun _ => ?_⟩
      obtain hgt2 | hle2 := lt_or_ge (-2) (theta + 2)
      · rw [hkeep hgt2]
        linarith
      · exact hnonpos hle2
    · rw [wrapUp, if_neg hle]
      exact ⟨not_le.mp hle, ⟨0, by simp⟩, fun _ => rfl, fun h => absurd h hle⟩

/-- A rational is no larger than its numerator, which is what the fuel of `wrap` is taken from. -/
theorem abs_le_natAbs_num (theta : Rat) : |theta| ≤ theta.num.natAbs := by
  have hden : (1 : Rat) ≤ theta.den := by exact_mod_cast theta.pos
  calc |theta| = |(theta.num : Rat)| / theta.den := by
        conv_lhs => rw [← Rat.num_div_den theta, abs_div, Nat.abs_cast]
    _ ≤ |(theta.num : Rat)| := div_le_self (abs_nonneg _) hden
    _ = theta.num.natAbs := by rw [Nat.cast_natAbs, Int.cast_abs]

/-- The fuel of `wrap` is enough for either loop. -/
theorem wrap_fuel (theta : Rat) :
    theta < 2 * ((theta.num.natAbs + 1 : Nat) + 1) ∧
      -(2 * ((theta.num.natAbs + 1 : Nat) + 1)) < theta := by
  have habs := abs_le.mp (abs_le_natAbs_num theta)
  have hnonneg : (0 : Rat) ≤ theta.num.natAbs := Nat.cast_nonneg _
  push_cast
  constructor <;> linarith

/-- From 2π up only the first loop turns. -/
theorem wrap_of_two_le (h : 2 ≤ theta) :
    wrap theta = wrapDown (theta.num.natAbs + 1) theta ∧ 0 ≤ wrap theta ∧ wrap theta < 2 := by
  obtain ⟨hlt, _, _, hnonneg⟩ := wrapDown_spec (wrap_fuel theta).1
  have hpos := hnonneg h
  have hup : wrap theta = wrapDown (theta.num.natAbs + 1) theta :=
    if_neg (by linarith)
  exact ⟨hup, hup ▸ hpos, hup ▸ hlt⟩

/-- Below 2π only the second loop turns. -/
theorem wrap_of_lt_two (h : theta < 2) :
    wrap theta = wrapUp (theta.num.natAbs + 1) theta := by
  obtain ⟨_, _, hkeep, _⟩ := wrapDown_spec (wrap_fuel theta).1
  rw [wrap, hkeep h]

/-- Inside the interval nothing turns. -/
theorem wrap_of_mem (hlow : -2 < theta) (hhigh : theta < 2) : wrap theta = theta := by
  obtain ⟨_, _, hkeep, _⟩ := wrapUp_spec (wrap_fuel theta).2
  rw [wrap_of_lt_two hhigh, hkeep hlow]

/-- One turn too many is taken off. -/
theorem wrap_of_two_le_of_lt_four (hlow : 2 ≤ theta) (hhigh : theta < 4) :
    wrap theta = theta - 2 := by
  have hfuel : theta - 2 < 2 * ((theta.num.natAbs : Rat) + 1) := by
    have := (wrap_fuel theta).1
    push_cast at this
    linarith
  obtain ⟨_, _, hkeep, _⟩ := wrapDown_spec hfuel
  rw [(wrap_of_two_le hlow).1, wrapDown, if_pos hlow, hkeep (by linarith)]

end

/-- Settles O42: above 2π by the first loop, below −2π by the second. -/
theorem wrapStaysOpenInterval : Obligations.WrapStaysOpenInterval := by
  refine ⟨fun theta => ?_, ?_, ?_⟩
  · obtain hlt | hge := lt_or_ge theta 2
    · obtain ⟨hgt, hturns, hkeep, hnonpos⟩ := wrapUp_spec (wrap_fuel theta).2
      rw [wrap_of_lt_two hlt]
      refine ⟨hgt, ?_, hturns, fun hlow _ => hkeep hlow⟩
      obtain hlow | hle := lt_or_ge (-2) theta
      · rwa [hkeep hlow]
      · exact (hnonpos hle).trans_lt two_pos
    · obtain ⟨hdown, hnonneg, hlt2⟩ := wrap_of_two_le hge
      obtain ⟨_, hturns, _, _⟩ := wrapDown_spec (wrap_fuel theta).1
      exact ⟨by linarith, hlt2, hdown ▸ hturns, fun _ h => absurd h (not_lt.mpr hge)⟩
  · rw [wrap_of_two_le_of_lt_four le_rfl (by norm_num), sub_self]
  · rw [wrap_of_lt_two (by norm_num)]
    norm_num [wrapUp]

/-- Settles O43: the sum of two phases is below 2π, or one turn too many. -/
theorem quadrantAddIsWrappedSum : Obligations.QuadrantAddIsWrappedSum := by
  intro a b
  have ha : a.toNat < 4 := a.isLt
  have hb : b.toNat < 4 := b.isLt
  have hsum : phaseOf a + phaseOf b = ((a.toNat + b.toNat : Nat) : Rat) / 2 := by
    rw [phaseOf, phaseOf, Nat.cast_add, add_div]
  have hadd : (qadd a b).toNat = (a.toNat + b.toNat) % 4 := BitVec.toNat_add a b
  rw [hsum, phaseOf, hadd]
  obtain hlt | hge := Nat.lt_or_ge (a.toNat + b.toNat) 4
  · have hlt' : ((a.toNat + b.toNat : Nat) : Rat) < 4 := by exact_mod_cast hlt
    have hnonneg : (0 : Rat) ≤ ((a.toNat + b.toNat : Nat) : Rat) := Nat.cast_nonneg _
    rw [Nat.mod_eq_of_lt hlt, wrap_of_mem (by linarith) (by linarith)]
  · have hge' : (4 : Rat) ≤ ((a.toNat + b.toNat : Nat) : Rat) := by exact_mod_cast hge
    have hlt' : ((a.toNat + b.toNat : Nat) : Rat) < 8 := by
      exact_mod_cast (by omega : a.toNat + b.toNat < 8)
    have hmod : (a.toNat + b.toNat) % 4 = a.toNat + b.toNat - 4 := by omega
    rw [hmod, wrap_of_two_le_of_lt_four (by linarith) (by linarith), Nat.cast_sub hge]
    push_cast
    ring

/-! ## The expected length (R220) -/

section
variable {prm : Params} {r : Rate} {m : Mapper}

theorem expectedChips_of_long (h : shortPreamble r = false) (n : Nat) :
    expectedChips prm r n =
      88 * min n prm.long1MBytes + chipsPerByte r * (n - prm.long1MBytes) + 11 := by
  have hrest : n - min n prm.long1MBytes - 0 = n - prm.long1MBytes := by omega
  simp only [expectedChips, preambleBytes, h, Bool.false_eq_true, if_false, hrest, Nat.mul_zero,
    Nat.add_zero]

theorem expectedChips_of_short (h : shortPreamble r = true) (n : Nat) :
    expectedChips prm r n =
      88 * min n 9 + 44 * min (n - 9) 6 + chipsPerByte r * (n - 15) + 11 := by
  have hhdr : n - min n 9 = n - 9 := by omega
  have hrest : n - 9 - min (n - 9) 6 = n - 15 := by omega
  simp only [expectedChips, preambleBytes, h, if_true, hhdr, hrest]

theorem expectedChips_zero (prm : Params) (r : Rate) : expectedChips prm r 0 = 11 := by
  cases h : shortPreamble r with
  | false => simp [expectedChips_of_long h]
  | true => simp [expectedChips_of_short h]

/-- The mapper of data byte `j` of a packet, by the segment `j` lies in (R211). -/
def byteMapper (prm : Params) (r : Rate) (j : Nat) : Option Mapper :=
  if j < preambleBytes prm r then some .dbpsk
  else if j < payloadStart prm r then some .dqpsk
  else payloadMapper r

/-- Each data byte adds its mapper's chips to the expected length. -/
theorem expectedChips_succ {j : Nat} (hm : byteMapper prm r j = some m) :
    expectedChips prm r (j + 1) = expectedChips prm r j + mapperChips m := by
  unfold byteMapper at hm
  cases hshort : shortPreamble r with
  | false =>
    rw [payloadStart_of_not_shortPreamble (by simp [hshort])] at hm
    simp only [preambleBytes, hshort, Bool.false_eq_true, if_false] at hm
    rw [expectedChips_of_long hshort, expectedChips_of_long hshort]
    split at hm
    next hpre =>
      cases hm
      have hrest : j + 1 - prm.long1MBytes = j - prm.long1MBytes := by omega
      rw [hrest, mapperChips]
      omega
    next hpay =>
      have hrest : j + 1 - prm.long1MBytes = j - prm.long1MBytes + 1 := by omega
      rw [hrest, Nat.mul_succ, ← chipsPerByte_of_payloadMapper hm]
      omega
  | true =>
    rw [payloadStart_of_shortPreamble hshort, preambleBytes_of_shortPreamble hshort] at hm
    rw [expectedChips_of_short hshort, expectedChips_of_short hshort]
    split at hm
    next hpre =>
      cases hm
      have hrest : j + 1 - 15 = j - 15 := by omega
      rw [hrest, mapperChips]
      omega
    next hpre =>
    split at hm
    next hhdr =>
      cases hm
      have hrest : j + 1 - 15 = j - 15 := by omega
      rw [hrest, mapperChips]
      omega
    next hpay =>
      have hrest : j + 1 - 15 = j - 15 + 1 := by omega
      rw [hrest, Nat.mul_succ, ← chipsPerByte_of_payloadMapper hm]
      omega

/-- A valid rate has a mapper for every data byte. -/
theorem exists_byteMapper (h : r ≠ 7) (j : Nat) : ∃ m, byteMapper prm r j = some m := by
  unfold byteMapper
  split
  · exact ⟨_, rfl⟩
  · split
    · exact ⟨_, rfl⟩
    · exact exists_payloadMapper h

theorem expectedChips_mono (h : r ≠ 7) {j n : Nat} (hle : j ≤ n) :
    expectedChips prm r j ≤ expectedChips prm r n := by
  induction hle with
  | refl => exact le_rfl
  | @step n _ ih =>
    obtain ⟨m, hm⟩ := exists_byteMapper (prm := prm) h n
    rw [expectedChips_succ hm]
    omega

/-- No byte takes more than 88 chips. -/
theorem expectedChips_le (h : r ≠ 7) (n : Nat) : expectedChips prm r n ≤ 88 * n + 11 := by
  induction n with
  | zero => rw [expectedChips_zero]
  | succ n ih =>
    obtain ⟨m, hm⟩ := exists_byteMapper (prm := prm) h n
    have := mapperChips_le m
    rw [expectedChips_succ hm]
    omega

end

/-- Settles O44: the closed forms by the kind of rate, the width by 88 chips per byte. -/
theorem expectedLengthFormula : Obligations.ExpectedLengthFormula := by
  intro prm n hn
  refine ⟨rfl, fun r cpb hmem => ?_, fun r cpb hmem => ?_, fun r h7 =>
    ⟨?_, expectedChips_zero prm r⟩⟩
  · simp only [List.mem_cons, Prod.mk.injEq, List.not_mem_nil, or_false] at hmem
    obtain ⟨rfl, rfl⟩ | ⟨rfl, rfl⟩ | ⟨rfl, rfl⟩ | ⟨rfl, rfl⟩ := hmem <;>
      exact expectedChips_of_long rfl n
  · simp only [List.mem_cons, Prod.mk.injEq, List.not_mem_nil, or_false] at hmem
    obtain ⟨rfl, rfl⟩ | ⟨rfl, rfl⟩ | ⟨rfl, rfl⟩ := hmem <;> exact expectedChips_of_short rfl n
  · have hle := expectedChips_le (prm := prm) h7 n
    have hwidth : 2 ^ prm.expW = 128 * 2 ^ prm.cntW := by
      rw [Params.expW, Nat.pow_add, Nat.mul_comm]
    omega

end Sys2Proof.Machine

/-! PROOFS. Whole packets (41_chip_mappers.md section 5, 42_segment_fsm.md): the course of a
packet through the flow of the streams, and what a call that takes the packet, or part of it,
leaves. -/

namespace Sys2Proof.Machine

section
variable {prm : Params} {S : Engine} {r : Rate} {m : Mapper} {x : Byte} {j : Nat} {i i' : Instr}
  {head : Option InItem}

/-! ## One data byte of a packet -/

/-- Inside a packet the mapper is that of the byte's index (R211). -/
theorem mapper_eq_byteMapper (hfault : S.fault = false) (hlt : S.dCopy < S.dCount)
    (happ : S.dAppend = 0 ∨ S.dAppend = 11) (hrate : S.rate ≠ 7) :
    mapper prm S = byteMapper prm S.rate S.dCopy := by
  unfold byteMapper
  split
  next hpre =>
    exact mapper_of_preamble (SegmentReading.preamble hfault hlt happ hrate hpre).segment_eq
  next hpre =>
  split
  next hhdr =>
    have hshort : shortPreamble S.rate = true := by
      by_contra hlong
      rw [payloadStart_of_not_shortPreamble hlong] at hhdr
      exact hpre hhdr
    exact mapper_of_header
      (SegmentReading.header hfault hlt happ hshort (Nat.not_lt.mp hpre) hhdr).segment_eq
  next hpay =>
    exact mapper_of_payload
      (SegmentReading.payload hfault hlt happ hrate (Nat.not_lt.mp hpay)).segment_eq

/-- The increments a byte adds to the accumulator under each mapper; `odd` is the parity of the
payload counter (R195). -/
def mapperTurns (prm : Params) (odd : Bool) : Mapper → Byte → Quadrant
  | .dbpsk, x => dbpskPhase 0 x 7
  | .dqpsk, x => dqpskPhase 0 x 3
  | .cck55, x => cck55End prm 0 x
  | .cck11, x => cck11End prm odd 0 x

theorem mapByte_acc : (mapByte prm S m x).acc =
    S.dPhaseAcc + mapperTurns prm (S.dPsduSymbolCount % 2 == 1) m x := by
  cases m with
  | dbpsk => simp [mapByte, mapBitsDbpsk_eq, mapperTurns, dbpskPhase]
  | dqpsk => simp [mapByte, mapDibitsDqpsk_eq, mapperTurns, dqpskPhase]
  | cck55 => simp [mapByte, mapHalvesCck55_eq, mapperTurns, cck55End, cck55Mid, BitVec.add_assoc]
  | cck11 => simp [mapByte, mapSymbolCck11_eq, parityOdd_eq, mapperTurns, cck11End]

theorem byteTurns_of_byteMapper (hm : byteMapper prm r j = some m) :
    byteTurns prm r j x = mapperTurns prm ((j - payloadStart prm r) % 2 == 1) m x := by
  unfold byteMapper at hm
  unfold byteTurns
  split at hm
  next hpre => cases hm; rw [if_pos hpre]; rfl
  next hpre =>
  rw [if_neg hpre]
  split at hm
  next hhdr => cases hm; rw [if_pos hhdr]; rfl
  next hpay =>
  rw [if_neg hpay, hm]
  cases m <;> rfl

/-- The payload counter after `j` data bytes (R38, R232). -/
def packetSymbols (prm : Params) (r : Rate) (j : Nat) : Nat :=
  symbolsPerByte r * (j - payloadStart prm r)

theorem payloadMapper_eq_cck11 (hm : byteMapper prm r j = some .cck11) :
    payloadMapper r = some .cck11 := by
  unfold byteMapper at hm
  split at hm
  · cases hm
  · split at hm
    · cases hm
    · exact hm

/-- At 11 Mbps the counter's parity is that of the byte's index in the payload (R191). -/
theorem mapperTurns_packetSymbols (hm : byteMapper prm r j = some m) :
    mapperTurns prm (packetSymbols prm r j % 2 == 1) m x = byteTurns prm r j x := by
  rw [byteTurns_of_byteMapper hm]
  cases m with
  | cck11 =>
    rw [packetSymbols, symbolsPerByte_of_payloadMapper (payloadMapper_eq_cck11 hm)]
    simp [mapperSymbols]
  | _ => rfl

theorem packetSymbols_le (prm : Params) (r : Rate) (j : Nat) : packetSymbols prm r j ≤ 8 * j :=
  Nat.mul_le_mul (symbolsPerByte_le r) (Nat.sub_le _ _)

/-- A mapped byte takes the counter to its value after one byte more. -/
theorem symbolsAfter_packet (hm : mapper prm S = some m)
    (hsym : S.dPsduSymbolCount = packetSymbols prm S.rate S.dCopy)
    (hcount : S.dCount < 2 ^ prm.cntW) :
    symbolsAfter prm S = packetSymbols prm S.rate (S.dCopy + 1) := by
  obtain ⟨hlt, _⟩ := lt_of_mapper hm
  have hwidth : 2 ^ prm.symW = 8 * 2 ^ prm.cntW := by rw [Params.symW, Nat.pow_add, Nat.mul_comm]
  have hbound := packetSymbols_le prm S.rate (S.dCopy + 1)
  unfold symbolsAfter
  split
  next hpay =>
    obtain ⟨_, _, hstart⟩ := registers_of_payload hpay
    have hsum : S.dPsduSymbolCount + symbolsPerByte S.rate =
        packetSymbols prm S.rate (S.dCopy + 1) := by
      have hsub : S.dCopy + 1 - payloadStart prm S.rate =
          S.dCopy - payloadStart prm S.rate + 1 := by omega
      rw [hsym, packetSymbols, packetSymbols, hsub, Nat.mul_succ]
    rw [addSymbols_of_lt (by omega), hsum]
  next hpay =>
    have hstart : S.dCopy + 1 ≤ payloadStart prm S.rate := by
      obtain hseg | hseg | hseg := segment_of_mapper hm
      · obtain ⟨_, _, hpre⟩ := registers_of_preamble hseg
        exact hpre.trans_le preambleBytes_le_payloadStart
      · obtain ⟨_, _, _, hhdr⟩ := registers_of_header hseg
        exact hhdr
      · exact absurd hseg hpay
    rw [hsym, packetSymbols, packetSymbols, Nat.sub_eq_zero_of_le hstart,
      Nat.sub_eq_zero_of_le (by omega)]

theorem CandidateReading.unique (h : CandidateReading prm S head i)
    (h' : CandidateReading prm S head i') : i = i' :=
  Option.some.inj ((candidate_eq_some_iff.mpr h).symm.trans (candidate_eq_some_iff.mpr h'))

end

/-! ## The course of a packet -/

/-- The unannotated input items of data bytes (R113). -/
def dataItems (data : List Byte) : List InItem := data.map fun x => ⟨x, none⟩

/-- The flow is `j` data bytes into the packet that its START began at `f0`: `qs` are the chips
written since, the trailer's among them once `d_append` is 11. -/
structure InPacket (prm : Params) (f0 : Flow) (r : Rate) (len : Nat) (data : List Byte)
    (rest : List InItem) (j : Nat) (f : Flow) : Prop where
  rp : f.rp = f0.rp + 1 + j
  input : f.input = dataItems (data.drop j) ++ rest
  fault : f.eng.fault = false
  rate : f.eng.rate = r
  dCopy : f.eng.dCopy = j
  dCount : f.eng.dCount = len - 1
  acc : f.eng.dPhaseAcc = packetTurns prm r (data.take j)
  symbols : f.eng.dPsduSymbolCount = packetSymbols prm r j
  written : ∃ qs : List Quadrant,
    f.output = f0.output ++ .tag (expectedChips prm r (len - 1)) :: qs.map .chip ∧
    f.wp = f0.wp + qs.length ∧
    ((f.eng.dAppend = 0 ∧ qs.length + 11 = expectedChips prm r j) ∨
      (f.eng.dAppend = 11 ∧ j = len - 1 ∧ qs.length = expectedChips prm r j))

/-- From `f0`, whose next byte is the selector of a packet with `n` data bytes at hand, a flow is
still there, or in the packet, or past the bytes at hand. -/
def Course (f0 : Flow) (n : Nat) (At : Nat → Flow → Prop) (f : Flow) : Prop :=
  f = f0 ∨ (∃ j, j ≤ n ∧ At j f) ∨ f0.rp + 1 + n < f.rp

section
variable {prm : Params} {f0 f g : Flow} {r : Rate} {sel : Byte} {len n cap j : Nat}
  {data : List Byte} {rest : List InItem} {At : Nat → Flow → Prop} {i : Instr} {s t u : State}
  {c : Call}

theorem course_of_run (hstart : ∀ g, FlowStep prm f0 g → At 0 g)
    (hnext : ∀ j f g, j ≤ n → At j f → FlowStep prm f g → Course f0 n At g)
    (hrun : FlowRun prm f0 f) : Course f0 n At f := by
  induction hrun with
  | refl => exact .inl rfl
  | tail _ hstep ih =>
    obtain rfl | ⟨j, hj, hat⟩ | hpast := ih
    · exact .inr (.inl ⟨0, Nat.zero_le _, hstart _ hstep⟩)
    · exact hnext j _ _ hj hat hstep
    · obtain ⟨i, _, _, rfl⟩ := hstep
      exact .inr (.inr (Nat.lt_of_lt_of_le hpast (Nat.le_add_right _ _)))

theorem packetTurns_take_succ (hj : j < data.length) :
    packetTurns prm r (data.take (j + 1)) =
      packetTurns prm r (data.take j) + byteTurns prm r j data[j] := by
  have hlen : (data.take j).length = j := List.length_take_of_le hj.le
  rw [List.take_succ_eq_append_getElem hj, packetTurns, List.zipIdx_append, List.foldl_append,
    hlen, Nat.zero_add]
  rfl

theorem dataItems_drop (hj : j < data.length) :
    dataItems (data.drop j) = ⟨data[j], none⟩ :: dataItems (data.drop (j + 1)) := by
  rw [List.drop_eq_getElem_cons hj]
  rfl

/-- A valid selector starts the packet (R212). -/
theorem inPacket_of_start (hidle : segment prm f0.eng = .idle) (hsel : sel.toNat ≤ 6)
    (hlen : admissibleLength prm.cntW len = true)
    (hinput : f0.input = ⟨sel, some len⟩ :: dataItems data ++ rest) (hstep : FlowStep prm f0 g) :
    InPacket prm f0 (BitVec.ofNat 3 sel.toNat) len data rest 0 g := by
  obtain ⟨i, hi, _, rfl⟩ := hstep
  have hreads : readsAnnotated (segment prm f0.eng) = true := by rw [hidle]; rfl
  have hhead : f0.input.head? = some ⟨sel, some len⟩ := by rw [hinput]; rfl
  obtain ⟨hfault, _, _⟩ := segment_eq_idle_iff.mp hidle
  obtain rfl := hi.unique (.start hreads hhead hlen)
  have heff : effect prm f0.eng (decodeSelector sel len) = _ :=
    effect_decodeSelector.trans (if_pos hsel)
  rw [Flow.after, heff, groupChips_decodeSelector, bytesTaken_decodeSelector, hinput]
  refine ⟨rfl, rfl, hfault, rfl, rfl, rfl, rfl, ?_, [], rfl, rfl, .inl ⟨rfl, ?_⟩⟩
  · simp [packetSymbols]
  · rw [expectedChips_zero]
    rfl

/-- Where bytes are read, a step moves the read position by one. -/
theorem rp_of_step_of_reads (hreads : readsAnnotated (segment prm f.eng) = true)
    (hstep : FlowStep prm f g) : g.rp = f.rp + 1 := by
  obtain ⟨i, hi, href, rfl⟩ := hstep
  rw [Flow.after, hi.bytesTaken_eq_one hreads href]

/-- While bytes of the packet are still to come, the mapper is that of the next one. -/
theorem InPacket.exists_mapper (hat : InPacket prm f0 r len data rest j f) (hr : r ≠ 7)
    (hmore : j < len - 1) : ∃ m, byteMapper prm r j = some m ∧ mapper prm f.eng = some m := by
  obtain ⟨m, hm⟩ := exists_byteMapper (prm := prm) hr j
  obtain ⟨qs, _, _, happ⟩ := hat.written
  have happ' : f.eng.dAppend = 0 ∨ f.eng.dAppend = 11 := happ.imp (fun h => h.1) (fun h => h.1)
  have hlt : f.eng.dCopy < f.eng.dCount := by rw [hat.dCopy, hat.dCount]; exact hmore
  refine ⟨m, hm, ?_⟩
  rw [mapper_eq_byteMapper hat.fault hlt happ' (hat.rate ▸ hr), hat.rate, hat.dCopy, hm]

/-- The next data byte is at the head. -/
theorem InPacket.head (hat : InPacket prm f0 r len data rest j f) (hj : j < data.length) :
    f.input.head? = some ⟨data[j], none⟩ := by
  rw [hat.input, dataItems_drop hj]
  rfl

/-- With all bytes mapped and none sent, the trailer is owed. -/
theorem InPacket.segment_eq_trailer (hat : InPacket prm f0 r len data rest j f)
    (hdone : j = len - 1) (h0 : f.eng.dAppend = 0) : segment prm f.eng = .trailer :=
  segment_eq_trailer_iff.mpr ⟨hat.fault, by rw [hat.dCopy, hat.dCount, hdone], h0⟩

/-- With the trailer sent, the packet is complete. -/
theorem InPacket.segment_eq_idle (hat : InPacket prm f0 r len data rest j f)
    (hdone : j = len - 1) (h11 : f.eng.dAppend = 11) : segment prm f.eng = .idle :=
  segment_eq_idle_iff.mpr ⟨hat.fault, by rw [hat.dCopy, hat.dCount, hdone], h11⟩

/-- The next data byte is mapped (R211, R230). -/
theorem InPacket.map_step (hat : InPacket prm f0 r len data rest j f) (hr : r ≠ 7)
    (hdata : data.length < len) (hmax : len ≤ 2 ^ prm.cntW) (hj : j < data.length)
    (hstep : FlowStep prm f g) : InPacket prm f0 r len data rest (j + 1) g := by
  obtain ⟨i, hi, _, rfl⟩ := hstep
  obtain ⟨m, hm, hmapper⟩ := hat.exists_mapper hr (by omega)
  obtain rfl := hi.unique (.map hmapper (hat.head hj))
  obtain ⟨hrp, hinput, hfault, hrate, hcopy, hcount, hacc, hsym, qs, hout, hwp, happ⟩ := hat
  have happ0 : f.eng.dAppend = 0 ∧ qs.length + 11 = expectedChips prm r j := by
    obtain h0 | ⟨_, hdone, _⟩ := happ
    · exact h0
    · omega
  have hsym' : symbolsAfter prm f.eng = packetSymbols prm r (j + 1) := by
    rw [symbolsAfter_packet hmapper (by rw [hsym, hrate, hcopy]) (by omega), hrate, hcopy]
  have hacc' : (mapByte prm f.eng m data[j]).acc = packetTurns prm r (data.take (j + 1)) := by
    rw [mapByte_acc, hsym, mapperTurns_packetSymbols hm, packetTurns_take_succ hj, hacc]
  rw [Flow.after, effect_mapInstr, bytesTaken_mapInstr, groupChips_mapInstr, mapEffect, hinput,
    dataItems_drop hj]
  refine ⟨congrArg (· + 1) hrp, rfl, hfault, hrate, congrArg (· + 1) hcopy, hcount, hacc', hsym',
    qs ++ (mapByte prm f.eng m data[j]).chips, ?_, ?_, .inl ⟨happ0.1, ?_⟩⟩
  · simp [hout]
  · simp [hwp, Nat.add_assoc]
  · rw [expectedChips_succ hm, ← happ0.2, List.length_append, mapByte_chips_length]
    omega

/-- With all bytes mapped the owed trailer is sent (R240). -/
theorem InPacket.trailer_step (hat : InPacket prm f0 r len data rest j f) (hdone : j = len - 1)
    (h0 : f.eng.dAppend = 0) (hstep : FlowStep prm f g) :
    InPacket prm f0 r len data rest j g := by
  obtain ⟨i, hi, _, rfl⟩ := hstep
  obtain rfl := hi.unique (.trailer (hat.segment_eq_trailer hdone h0))
  obtain ⟨hrp, hinput, hfault, hrate, hcopy, hcount, hacc, hsym, qs, hout, hwp, happ⟩ := hat
  have hchips : qs.length + 11 = expectedChips prm r j := by
    obtain ⟨_, hchips⟩ | ⟨h11, _⟩ := happ
    · exact hchips
    · rw [h0] at h11
      cases h11
  refine ⟨hrp, hinput, hfault, hrate, hcopy, hcount, hacc, hsym, qs ++ trailerTable, ?_, ?_,
    .inr ⟨rfl, hdone, ?_⟩⟩
  · simp [Flow.after, effect, hout]
  · simp [Flow.after, groupChips, hwp, Nat.add_assoc]
  · simpa using hchips

/-- A step inside the packet maps the next byte, sends the trailer, or takes a byte past those at
hand. -/
theorem InPacket.course_step (hr : r ≠ 7) (hdata : data.length < len)
    (hmax : len ≤ 2 ^ prm.cntW) (hj : j ≤ data.length)
    (hat : InPacket prm f0 r len data rest j f) (hstep : FlowStep prm f g) :
    Course f0 data.length (InPacket prm f0 r len data rest) g := by
  obtain hlt | rfl := hj.lt_or_eq
  · exact .inr (.inl ⟨j + 1, hlt, hat.map_step hr hdata hmax hlt hstep⟩)
  · obtain ⟨qs, _, _, happ⟩ := hat.written
    have hpast (hreads : readsAnnotated (segment prm f.eng) = true) :
        f0.rp + 1 + data.length < g.rp := by
      rw [rp_of_step_of_reads hreads hstep, hat.rp]
      omega
    obtain hmore | hdone : data.length < len - 1 ∨ data.length = len - 1 := by omega
    · obtain ⟨m, _, hmapper⟩ := hat.exists_mapper hr hmore
      exact .inr (.inr (hpast (readsAnnotated_of_mapper hmapper)))
    · obtain ⟨h0, _⟩ | ⟨h11, _, _⟩ := happ
      · exact .inr (.inl ⟨_, le_rfl, hat.trailer_step hdone h0 hstep⟩)
      · exact .inr (.inr (hpast (by rw [hat.segment_eq_idle hdone h11]; rfl)))

/-- The course of a packet with a valid selector. -/
theorem packet_course (hidle : segment prm f0.eng = .idle) (hsel : sel.toNat ≤ 6)
    (hdata : data.length < len) (hmax : len ≤ 2 ^ prm.cntW)
    (hinput : f0.input = ⟨sel, some len⟩ :: dataItems data ++ rest) (hrun : FlowRun prm f0 f) :
    Course f0 data.length (InPacket prm f0 (BitVec.ofNat 3 sel.toNat) len data rest) f := by
  have hlen : admissibleLength prm.cntW len = true := admissibleLength_iff.mpr ⟨by omega, hmax⟩
  have hr : BitVec.ofNat 3 sel.toNat ≠ 7 := ne_seven_of_le_six (ofNat_le_six hsel)
  exact course_of_run (fun _ hstep => inPacket_of_start hidle hsel hlen hinput hstep)
    (fun _ _ _ hj hat hstep => hat.course_step hr hdata hmax hj hstep) hrun

/-! ## Calls over a packet -/

/-- The flow of a state inside a call, by what the call has done. -/
theorem flowOf_of_microRun (hrun : MicroRun (openCall n cap s) u) (hcall : u.call = some c) :
    flowOf u = ⟨u.eng, s.input.drop c.consumed, s.rp + c.consumed, s.output ++ c.events,
      s.wp + c.produced⟩ := by
  rw [flowOf_of_some hcall, hrun.frame]
  rfl

/-- Inside the window the head byte is the flow's next byte. -/
theorem headItem_eq_flow (hcall : u.call = some c) (hlt : c.consumed < c.window) :
    headItem u c = (flowOf u).input.head? := by
  rw [flowOf_input_head? hcall]
  exact if_pos hlt

/-- Where nothing is selected, a candidate there is lacks the room for its group. -/
theorem CandidateReading.full (hcand : CandidateReading u.params u.eng (headItem u c) i)
    (hsel : selectIn u c = none) : freeSlots c < groupChips i := by
  by_contra hfit
  have hsome : selectIn u c = some i := select_eq_some_iff.mpr ⟨hcand, Nat.not_lt.mp hfit⟩
  rw [hsel] at hsome
  cases hsome

/-- A call over a selector with an admissible annotation and unannotated bytes is not refused
(R214). -/
theorem exists_process_next_of_packet (cap : Nat) (hc : s.call = none)
    (hlen : admissibleLength s.params.cntW len = true)
    (hinput : s.input = ⟨sel, some len⟩ :: dataItems data ++ rest) :
    ∃ t, exec (.process (data.length + 1) cap) s = .next t := by
  have htake : s.input.take (data.length + 1) = ⟨sel, some len⟩ :: dataItems data := by
    have hl : (dataItems data).length = data.length := List.length_map _
    rw [hinput, List.take_left' (by rw [List.length_cons, hl])]
  cases hexec : exec (.process (data.length + 1) cap) s with
  | next t => exact ⟨t, rfl⟩
  | fault f => exact absurd hexec (process_ne_fault hc f)
  | refused e =>
    obtain ⟨_, item, hmem, l, htag, hbad⟩ := inadmissible_of_process_refused hc hexec
    rw [htake, List.mem_cons] at hmem
    obtain rfl | hmem := hmem
    · cases htag
      rw [hlen] at hbad
      cases hbad
    · obtain ⟨x, _, rfl⟩ := List.mem_map.mp hmem
      cases htag

/-- A call over a selector and its data bytes has taken the selector when it ends, and has come to
some data byte of the packet's course. -/
theorem packet_call (hc : s.call = none) (hidle : segment s.params s.eng = .idle)
    (hlen : admissibleLength s.params.cntW len = true)
    (hinput : s.input = ⟨sel, some len⟩ :: dataItems data ++ rest)
    (hcourse : ∀ f, FlowRun s.params (flowOf s) f → Course (flowOf s) data.length At f) :
    ∃ u c j, exec (.process (data.length + 1) cap) s = .next (returnCall u) ∧
      MicroRun (openCall (data.length + 1) cap s) u ∧ u.call = some c ∧
      selectIn u c = none ∧ c.window = data.length + 1 ∧ j ≤ data.length ∧ At j (flowOf u) := by
  have hwin : min (data.length + 1) s.input.length = data.length + 1 := by
    rw [hinput]
    simp [dataItems]
  obtain ⟨t, hexec⟩ := exists_process_next_of_packet cap hc hlen hinput
  obtain ⟨u, c, hrun, hcall, hsel, rfl⟩ := exec_process_next hc hexec
  obtain ⟨⟨hk, _, _, _⟩, hw, _, _⟩ := returnCall_of_microRun hrun hcall hc
  rw [hwin] at hw
  have hflow := hrun.flowRun
  rw [flowOf_openCall hc] at hflow
  have hrp : (flowOf u).rp = s.rp + c.consumed := by rw [flowOf_of_microRun hrun hcall]
  have hrp0 : (flowOf s).rp = s.rp := by rw [flowOf_of_none hc]
  obtain hsame | ⟨j, hj, hat⟩ | hpast := hcourse _ hflow
  · exfalso
    have hzero : c.consumed = 0 := by rw [hsame] at hrp; omega
    have heng : u.eng = s.eng := by
      have := congrArg Flow.eng hsame
      rwa [flowOf_of_some hcall, flowOf_of_none hc] at this
    have hhead : headItem u c = some ⟨sel, some len⟩ := by
      rw [headItem_eq_flow hcall (by omega), hsame, flowOf_of_none hc, hinput]
      rfl
    have hprm : u.params = s.params := hrun.params_eq
    have hreads : readsAnnotated (segment u.params u.eng) = true := by
      rw [hprm, heng, hidle]
      rfl
    have hfull := (CandidateReading.start hreads hhead (hprm ▸ hlen)).full hsel
    rw [groupChips_decodeSelector] at hfull
    exact absurd hfull (Nat.not_lt_zero _)
  · exact ⟨u, c, j, hexec, hrun, hcall, hsel, hw, hj, hat⟩
  · omega

/-- With capacity for the packet and its trailer, the call ends with the trailer sent: before, the
next byte's group or the trailer would still fit (R222). -/
theorem whole_packet_call (hc : s.call = none) (hidle : segment s.params s.eng = .idle)
    (hsel : sel.toNat ≤ 6) (hmax : data.length < 2 ^ s.params.cntW)
    (hinput : s.input = packetItems sel data ++ rest)
    (hcap : expectedChips s.params (BitVec.ofNat 3 sel.toNat) data.length ≤ cap) :
    ∃ u c, exec (.process (data.length + 1) cap) s = .next (returnCall u) ∧
      MicroRun (openCall (data.length + 1) cap s) u ∧ u.call = some c ∧ u.eng.dAppend = 11 ∧
      InPacket s.params (flowOf s) (BitVec.ofNat 3 sel.toNat) (data.length + 1) data rest
        data.length (flowOf u) := by
  have hlen : admissibleLength s.params.cntW (data.length + 1) = true :=
    admissibleLength_iff.mpr ⟨by omega, hmax⟩
  have hr : BitVec.ofNat 3 sel.toNat ≠ 7 := ne_seven_of_le_six (ofNat_le_six hsel)
  have hs : flowOf s = _ := flowOf_of_none hc
  obtain ⟨u, c, j, hexec, hrun, hcall, hnone, hw, hj, hat⟩ := packet_call (cap := cap) hc hidle hlen
    hinput fun f hflow => packet_course (by rwa [hs]) hsel (Nat.lt_succ_self _) hmax
      (by rw [hs]; exact hinput) hflow
  refine ⟨u, c, hexec, hrun, hcall, ?_⟩
  have hu : flowOf u = _ := flowOf_of_microRun hrun hcall
  have heng : (flowOf u).eng = u.eng := by rw [hu]
  have hprm : u.params = s.params := hrun.params_eq
  obtain ⟨_, _, hcap', _⟩ := returnCall_of_microRun hrun hcall hc
  obtain ⟨qs, _, hwp, happ⟩ := hat.written
  have hproduced : c.produced = qs.length := by
    rw [hu, hs] at hwp
    exact Nat.add_left_cancel hwp
  obtain ⟨h0, hchips⟩ | ⟨h11, hdone, _⟩ := happ
  · exfalso
    obtain hlt | rfl := hj.lt_or_eq
    · obtain ⟨m, hm, hmapper⟩ := hat.exists_mapper hr hlt
      have hconsumed : c.consumed < c.window := by
        have hrp := hat.rp
        rw [hu, hs] at hrp
        have : s.rp + c.consumed = s.rp + 1 + j := hrp
        omega
      have hhead := (headItem_eq_flow hcall hconsumed).trans (hat.head hlt)
      rw [heng, ← hprm] at hmapper
      have hfull := (CandidateReading.map hmapper hhead).full hnone
      have hsucc := expectedChips_succ hm
      have hmono : expectedChips s.params (BitVec.ofNat 3 sel.toNat) (j + 1) ≤
          expectedChips s.params (BitVec.ofNat 3 sel.toNat) data.length :=
        expectedChips_mono hr hlt
      rw [groupChips_mapInstr, freeSlots] at hfull
      omega
    · have hseg := hat.segment_eq_trailer rfl h0
      rw [heng, ← hprm] at hseg
      have hfull := (CandidateReading.trailer (head := headItem u c) hseg).full hnone
      change c.cap - c.produced < 11 at hfull
      omega
  · obtain rfl : j = data.length := hdone
    exact ⟨heng ▸ h11, hat⟩

end

/-- Settles O49: the packet's course at the end of the call. -/
theorem packetProducesItsTag : Obligations.PacketProducesItsTag := by
  intro s sel data rest cap hc hidle hsel hmax hinput hcap
  obtain ⟨u, c, hexec, hrun, hcall, h11, hat⟩ :=
    whole_packet_call hc hidle hsel hmax hinput hcap
  obtain ⟨_, _, _, hret⟩ := returnCall_of_microRun hrun hcall hc
  have hcomplete : segment u.params u.eng = .idle := by
    have hseg := hat.segment_eq_idle rfl (by rw [flowOf_of_some hcall]; exact h11)
    have hprm : u.params = s.params := hrun.params_eq
    rwa [flowOf_of_some hcall, ← hprm] at hseg
  obtain ⟨qs, hout, hwp, happ⟩ := hat.written
  have hrp := hat.rp
  have hrest := hat.input
  have hcopy := hat.dCopy
  have hcount := hat.dCount
  rw [flowOf_of_microRun hrun hcall] at hout hwp hrp hrest hcopy hcount happ
  rw [flowOf_of_none hc] at hout hwp hrp
  have hchips : qs.length = expectedChips s.params (BitVec.ofNat 3 sel.toNat) data.length := by
    obtain ⟨h0, _⟩ | ⟨_, _, hchips⟩ := happ
    · cases h11.symm.trans h0
    · exact hchips
  have hevents : c.events = .tag qs.length :: qs.map .chip := by
    rw [hchips]
    exact List.append_cancel_left hout
  have hproduced : c.produced = qs.length := Nat.add_left_cancel hwp
  have hconsumed : c.consumed = data.length + 1 := by
    change s.rp + c.consumed = s.rp + 1 + data.length at hrp
    omega
  refine ⟨_, qs, hexec, hchips, ?_, ?_, returnCall_call u, ?_, ?_⟩
  · rw [hret, hevents, hproduced, hconsumed]
  · rw [hret]
    simpa [dataItems] using hrest
  · rwa [packetComplete, returnCall_params, returnCall_eng]
  · rw [returnCall_eng]
    exact hcopy.trans hcount.symm

/-- Settles O50: the same end, read for the accumulator. -/
theorem accumulatorIsWrappedSum : Obligations.AccumulatorIsWrappedSum := by
  intro s sel data rest cap hc hidle hsel hmax hinput hcap
  obtain ⟨u, c, hexec, _, hcall, _, hat⟩ := whole_packet_call hc hidle hsel hmax hinput hcap
  have hacc := hat.acc
  rw [flowOf_of_some hcall, List.take_length] at hacc
  exact ⟨_, hexec, by rw [returnCall_eng]; exact hacc⟩

/-- Settles O51: the calls have come along the packet's course, and the read position says how
far. -/
theorem accumulatorIsSplitIndependent : Obligations.AccumulatorIsSplitIndependent := by
  intro s t sel len k data rest calls hc hidle hsel hdata hmax hinput hruns hk hrp
  obtain ⟨hflow, _, hcall⟩ := flowRun_of_runCalls hc hruns
  have hs : flowOf s = _ := flowOf_of_none hc
  have hcourse := packet_course (by rwa [hs]) hsel hdata hmax (by rw [hs]; exact hinput) hflow
  have hrpt : (flowOf t).rp = s.rp + 1 + k := by rw [flowOf_of_none hcall, hrp]
  have hrps : (flowOf s).rp = s.rp := by rw [hs]
  obtain hsame | ⟨j, _, hat⟩ | hpast := hcourse
  · rw [hsame] at hrpt
    omega
  · obtain rfl : j = k := by
      have := hat.rp
      omega
    have hcopy := hat.dCopy
    have hacc := hat.acc
    rw [flowOf_of_none hcall] at hcopy hacc
    exact ⟨hcopy, hacc⟩
  · omega

/-! ## Malformed packets (R213, R245) -/

/-- The flow is `j` discarded bytes past a malformed selector at `f0`, with `S` as after reset: the
1M-long defaults, packet length 0 and no trailer owed. -/
structure InRejected (f0 : Flow) (sel : Byte) (data : List Byte) (rest : List InItem) (j : Nat)
    (f : Flow) : Prop where
  rp : f.rp = f0.rp + 1 + j
  input : f.input = dataItems (data.drop j) ++ rest
  eng : f.eng = resetEngine
  output : f.output = f0.output ++ [.rejectEv sel 1]
  wp : f.wp = f0.wp

section
variable {prm : Params} {f0 f g : Flow} {sel : Byte} {len j : Nat} {data : List Byte}
  {rest : List InItem}

theorem segment_resetEngine (prm : Params) : segment prm resetEngine = .idle :=
  segment_eq_idle_iff.mpr ⟨rfl, rfl, rfl⟩

/-- A malformed selector is rejected (R213). -/
theorem inRejected_of_start (hidle : segment prm f0.eng = .idle)
    (hmal : prm.malformedTrailer = false) (hsel : 7 ≤ sel.toNat)
    (hlen : admissibleLength prm.cntW len = true)
    (hinput : f0.input = ⟨sel, some len⟩ :: dataItems data ++ rest) (hstep : FlowStep prm f0 g) :
    InRejected f0 sel data rest 0 g := by
  obtain ⟨i, hi, _, rfl⟩ := hstep
  have hreads : readsAnnotated (segment prm f0.eng) = true := by rw [hidle]; rfl
  have hhead : f0.input.head? = some ⟨sel, some len⟩ := by rw [hinput]; rfl
  obtain ⟨hfault, _, _⟩ := segment_eq_idle_iff.mp hidle
  obtain rfl := hi.unique (.start hreads hhead hlen)
  have heff : effect prm f0.eng (decodeSelector sel len) = ⟨resetEngine, [.rejectEv sel 1]⟩ := by
    rw [effect_decodeSelector, selectorEffect, if_neg (by omega), hmal, hfault]
    rfl
  rw [Flow.after, heff, groupChips_decodeSelector, bytesTaken_decodeSelector, hinput]
  exact ⟨rfl, rfl, rfl, rfl, rfl⟩

/-- The next byte is in IDLE, so it is the candidate of a DISCARD. -/
theorem InRejected.discard (hat : InRejected f0 sel data rest j f) (hj : j < data.length) :
    CandidateReading prm f.eng f.input.head? (.discard data[j]) := by
  refine .discard (hat.eng ▸ segment_resetEngine prm) ?_
  rw [hat.input, dataItems_drop hj]
  rfl

theorem InRejected.course_step (hj : j ≤ data.length) (hat : InRejected f0 sel data rest j f)
    (hstep : FlowStep prm f g) : Course f0 data.length (InRejected f0 sel data rest) g := by
  obtain hlt | rfl := hj.lt_or_eq
  · obtain ⟨i, hi, _, rfl⟩ := hstep
    obtain rfl := hi.unique (hat.discard hlt)
    refine .inr (.inl ⟨j + 1, hlt, congrArg (· + 1) hat.rp, ?_, hat.eng, ?_, hat.wp⟩)
    · rw [Flow.after, hat.input, dataItems_drop hlt]
      rfl
    · rw [Flow.after, hat.output]
      exact List.append_nil _
  · have hreads : readsAnnotated (segment prm f.eng) = true := by
      rw [hat.eng, segment_resetEngine]
      rfl
    refine .inr (.inr ?_)
    rw [rp_of_step_of_reads hreads hstep, hat.rp]
    omega

end

/-- Settles O54: the rejected packet's course at the end of the call. -/
theorem malformedPacketIsDropped : Obligations.MalformedPacketIsDropped := by
  intro s sel len data rest cap hc hidle hmal hsel hpos hmax hinput
  have hlen : admissibleLength s.params.cntW len = true := admissibleLength_iff.mpr ⟨hpos, hmax⟩
  have hs : flowOf s = _ := flowOf_of_none hc
  obtain ⟨u, c, j, hexec, hrun, hcall, hnone, hw, hj, hat⟩ := packet_call (cap := cap)
    (At := InRejected (flowOf s) sel data rest) hc hidle hlen hinput fun f hflow =>
      course_of_run (fun _ hstep => inRejected_of_start (by rwa [hs]) hmal hsel hlen
        (by rw [hs]; exact hinput) hstep) (fun _ _ _ hj hat hstep => hat.course_step hj hstep) hflow
  obtain ⟨_, _, _, hret⟩ := returnCall_of_microRun hrun hcall hc
  have hu : flowOf u = _ := flowOf_of_microRun hrun hcall
  have hconsumed : c.consumed = 1 + j := by
    have hrp := hat.rp
    rw [hu, hs] at hrp
    change s.rp + c.consumed = s.rp + 1 + j at hrp
    omega
  have heng : u.eng = resetEngine := by
    have heng := hat.eng
    rwa [hu] at heng
  obtain rfl : j = data.length := by
    refine hj.antisymm (Nat.not_lt.mp fun hlt => ?_)
    have hcand := hat.discard (prm := u.params) hlt
    rw [← headItem_eq_flow hcall (by omega), hu] at hcand
    exact absurd (hcand.full hnone) (Nat.not_lt_zero _)
  obtain ⟨_, hrest, _, hout, hwp⟩ := hat
  rw [hu] at hrest hout hwp
  rw [hs] at hout hwp
  have hevents : c.events = [.rejectEv sel 1] := List.append_cancel_left hout
  have hproduced : c.produced = 0 := Nat.add_eq_left.mp hwp
  refine ⟨_, hexec, ?_, ?_, ?_, ?_⟩
  · rw [hret, hevents, hproduced, hconsumed, Nat.add_comm]
  · rw [hret]
    simpa [dataItems] using hrest
  · rw [packetComplete, returnCall_eng, heng, segment_resetEngine]
  · rw [returnCall_eng, heng]
    rfl

end Sys2Proof.Machine
